-- ==== Sys2Proof/Word.lean ====
section
/-! DEFINITION. The word types of the PIC16F8X: data bytes, instruction words and the three kinds of address
(spec/00_scope.md R6, R8, R9). Bit 0 is the least significant bit of every value. -/

namespace Sys2Proof

/-- A data value, a file register or W: 8 unsigned bits (R6 `DATA_BITS`, R9). -/
abbrev Byte := BitVec 8

/-- One instruction word: 14 bits, numbered 13 to 0 (R6 `INSTR_BITS`, R8, R100). -/
abbrev InstrWord := BitVec 14

/-- A program address, the width of PC: 13 bits (R6 `PC_BITS`, R23). -/
abbrev ProgAddr := BitVec 13

/-- The file register designator `f` of an instruction: 7 bits (R6 `F_BITS`). -/
abbrev FileAddr := BitVec 7

/-- A data address: the bank bit above the 7 bits of `f`, or the 8 bits of FSR (R65, R66). -/
abbrev DataAddr := BitVec 8

/-- The bit designator `b`: 3 bits, 0 is the least significant bit of the register (R6 `B_BITS`, R106). -/
abbrev BitNum := BitVec 3

end Sys2Proof
end

