-- ==== Sys2Proof/Syntax.lean ====
section
/-! DEFINITION. The 37 instructions, one constructor per row of spec/opcode_table.json, in the table's order
(spec/30_encoding.md R101 to R106, R110). Don't-care bits carry no meaning and are no operands (R107). -/

namespace Sys2Proof

/-- The destination designator `d`: `w` is d = 0, `f` is d = 1 (R14, R74). -/
inductive Dest where
  | w
  | f
  deriving DecidableEq, Repr

/-- One instruction with its operands. -/
inductive Instr where
  -- byte-oriented file register operations (R140 to R157)
  | addwf (f : FileAddr) (d : Dest)
  | andwf (f : FileAddr) (d : Dest)
  | clrf (f : FileAddr)
  | clrw
  | comf (f : FileAddr) (d : Dest)
  | decf (f : FileAddr) (d : Dest)
  | decfsz (f : FileAddr) (d : Dest)
  | incf (f : FileAddr) (d : Dest)
  | incfsz (f : FileAddr) (d : Dest)
  | iorwf (f : FileAddr) (d : Dest)
  | movf (f : FileAddr) (d : Dest)
  | movwf (f : FileAddr)
  | nop
  | rlf (f : FileAddr) (d : Dest)
  | rrf (f : FileAddr) (d : Dest)
  | subwf (f : FileAddr) (d : Dest)
  | swapf (f : FileAddr) (d : Dest)
  | xorwf (f : FileAddr) (d : Dest)
  -- bit-oriented file register operations (R180 to R183)
  | bcf (f : FileAddr) (b : BitNum)
  | bsf (f : FileAddr) (b : BitNum)
  | btfsc (f : FileAddr) (b : BitNum)
  | btfss (f : FileAddr) (b : BitNum)
  -- literal and control operations (R190 to R195, R200 to R206)
  | addlw (k : Byte)
  | andlw (k : Byte)
  | call (k : BitVec 11)
  | clrwdt
  | goto (k : BitVec 11)
  | iorlw (k : Byte)
  | movlw (k : Byte)
  | retfie
  | retlw (k : Byte)
  /-- RETURN. -/
  | ret
  | sleep
  | sublw (k : Byte)
  | xorlw (k : Byte)
  -- the compatibility instructions (R220, R221)
  | option
  /-- TRIS, with the 3-bit port number of `w[2:0]`; well formed for 5, 6 and 7. -/
  | tris (n : BitVec 3)
  deriving DecidableEq, Repr

end Sys2Proof
end

