-- ==== Sys2Proof/WellFormed.lean ====
section
/-! DEFINITION. Which operand values an instruction may carry (spec/30_encoding.md R106, R114). Every operand
range but one is the whole of its field and is carried by the operand's type; TRIS alone takes 5 to 7 only. -/

namespace Sys2Proof

/-- The range of the TRIS port number: `5 ≤ f ≤ 7` (R106, R221). -/
def trisNumberOk (n : BitVec 3) : Bool := decide (5 ≤ n.toNat)

/-- The operand ranges of R114, one line per constructor. -/
def Instr.wellFormed (i : Instr) : Bool :=
  match i with
  | .addwf _ _ => true
  | .andwf _ _ => true
  | .clrf _ => true
  | .clrw => true
  | .comf _ _ => true
  | .decf _ _ => true
  | .decfsz _ _ => true
  | .incf _ _ => true
  | .incfsz _ _ => true
  | .iorwf _ _ => true
  | .movf _ _ => true
  | .movwf _ => true
  | .nop => true
  | .rlf _ _ => true
  | .rrf _ _ => true
  | .subwf _ _ => true
  | .swapf _ _ => true
  | .xorwf _ _ => true
  | .bcf _ _ => true
  | .bsf _ _ => true
  | .btfsc _ _ => true
  | .btfss _ _ => true
  | .addlw _ => true
  | .andlw _ => true
  | .call _ => true
  | .clrwdt => true
  | .goto _ => true
  | .iorlw _ => true
  | .movlw _ => true
  | .retfie => true
  | .retlw _ => true
  | .ret => true
  | .sleep => true
  | .sublw _ => true
  | .xorlw _ => true
  | .option => true
  | .tris n => trisNumberOk n

end Sys2Proof
end

