-- ==== Sys2Proof/Decode.lean ====
section
/-! DEFINITION. Decoding of a 14-bit word by the algorithm of spec/30_encoding.md R108, total on all 16384 words,
and the encoder, written from the encoding lines of R110 with every don't-care bit 0 (R107). -/

namespace Sys2Proof

/-- What decoding a word yields: an instruction, or `Unassigned(w)` for the 372 words of R111. -/
inductive Decoded where
  | instr (i : Instr)
  | unassigned (w : InstrWord)
  deriving DecidableEq, Repr

/-! ## Operand fields (R106) -/

/-- `f = w[6:0]`. -/
def fieldF (w : InstrWord) : FileAddr := w.extractLsb' 0 7

/-- `d = w[7]`: 0 is W, 1 is the file register. -/
def fieldD (w : InstrWord) : Dest := if w.getLsbD 7 then .f else .w

/-- `b = w[9:7]`. -/
def fieldB (w : InstrWord) : BitNum := w.extractLsb' 7 3

/-- The 8-bit literal, `k = w[7:0]`. -/
def fieldK8 (w : InstrWord) : Byte := w.extractLsb' 0 8

/-- The 11-bit literal, `k = w[10:0]`. -/
def fieldK11 (w : InstrWord) : BitVec 11 := w.extractLsb' 0 11

/-- The TRIS port number, `w[2:0]`. -/
def fieldTris (w : InstrWord) : BitVec 3 := w.extractLsb' 0 3

/-! ## Decoding (R108) -/

/-- The block `00 0000 0xxx xxxx`: NOP, the operand-less control instructions, OPTION and TRIS, and the
unassigned words between them (R105, R108, R111). -/
def decodeControl (w : InstrWord) : Decoded :=
  match (fieldF w).toNat with
  | 0x00 => .instr .nop
  | 0x20 => .instr .nop
  | 0x40 => .instr .nop
  | 0x60 => .instr .nop
  | 0x08 => .instr .ret
  | 0x09 => .instr .retfie
  | 0x62 => .instr .option
  | 0x63 => .instr .sleep
  | 0x64 => .instr .clrwdt
  | 0x65 => .instr (.tris (fieldTris w))
  | 0x66 => .instr (.tris (fieldTris w))
  | 0x67 => .instr (.tris (fieldTris w))
  | _ => .unassigned w

/-- Bits 13:12 = 00: the byte-oriented instructions, by bits 11:8 (R101, R108). -/
def decodeByte (w : InstrWord) : Decoded :=
  match (w.extractLsb' 8 4).toNat with
  | 0x0 => if w.getLsbD 7 then .instr (.movwf (fieldF w)) else decodeControl w
  | 0x1 => if w.getLsbD 7 then .instr (.clrf (fieldF w)) else .instr .clrw
  | 0x2 => .instr (.subwf (fieldF w) (fieldD w))
  | 0x3 => .instr (.decf (fieldF w) (fieldD w))
  | 0x4 => .instr (.iorwf (fieldF w) (fieldD w))
  | 0x5 => .instr (.andwf (fieldF w) (fieldD w))
  | 0x6 => .instr (.xorwf (fieldF w) (fieldD w))
  | 0x7 => .instr (.addwf (fieldF w) (fieldD w))
  | 0x8 => .instr (.movf (fieldF w) (fieldD w))
  | 0x9 => .instr (.comf (fieldF w) (fieldD w))
  | 0xA => .instr (.incf (fieldF w) (fieldD w))
  | 0xB => .instr (.decfsz (fieldF w) (fieldD w))
  | 0xC => .instr (.rrf (fieldF w) (fieldD w))
  | 0xD => .instr (.rlf (fieldF w) (fieldD w))
  | 0xE => .instr (.swapf (fieldF w) (fieldD w))
  | _ => .instr (.incfsz (fieldF w) (fieldD w))

/-- Bits 13:12 = 01: the bit-oriented instructions, by bits 11:10 (R102, R108). -/
def decodeBit (w : InstrWord) : Decoded :=
  match (w.extractLsb' 10 2).toNat with
  | 0 => .instr (.bcf (fieldF w) (fieldB w))
  | 1 => .instr (.bsf (fieldF w) (fieldB w))
  | 2 => .instr (.btfsc (fieldF w) (fieldB w))
  | _ => .instr (.btfss (fieldF w) (fieldB w))

/-- Bits 13:12 = 10: CALL and GOTO, by bit 11 (R104, R108). -/
def decodeJump (w : InstrWord) : Decoded :=
  if w.getLsbD 11 then .instr (.goto (fieldK11 w)) else .instr (.call (fieldK11 w))

/-- Bits 13:12 = 11: the literal instructions, by bits 11:8 (R103, R108). Opcode 1011 is unassigned (R111). -/
def decodeLiteral (w : InstrWord) : Decoded :=
  match (w.extractLsb' 8 4).toNat with
  | 0x0 => .instr (.movlw (fieldK8 w))
  | 0x1 => .instr (.movlw (fieldK8 w))
  | 0x2 => .instr (.movlw (fieldK8 w))
  | 0x3 => .instr (.movlw (fieldK8 w))
  | 0x4 => .instr (.retlw (fieldK8 w))
  | 0x5 => .instr (.retlw (fieldK8 w))
  | 0x6 => .instr (.retlw (fieldK8 w))
  | 0x7 => .instr (.retlw (fieldK8 w))
  | 0x8 => .instr (.iorlw (fieldK8 w))
  | 0x9 => .instr (.andlw (fieldK8 w))
  | 0xA => .instr (.xorlw (fieldK8 w))
  | 0xB => .unassigned w
  | 0xC => .instr (.sublw (fieldK8 w))
  | 0xD => .instr (.sublw (fieldK8 w))
  | _ => .instr (.addlw (fieldK8 w))

/-- The decoding algorithm of R108, total on all 16384 words. -/
def decode (w : InstrWord) : Decoded :=
  match (w.extractLsb' 12 2).toNat with
  | 0 => decodeByte w
  | 1 => decodeBit w
  | 2 => decodeJump w
  | _ => decodeLiteral w

/-- The instruction decoded from a row's bits, numbered as spec/opcode_table.json numbers them. An instruction
is one word of 14 bits (R100), so a number with a higher bit set, or a row wider than one word, is refused. -/
def decodeTableWord (nbits w : Nat) : Option Instr :=
  if 16 < nbits || 0x4000 ≤ w then none
  else
    match decode (BitVec.ofNat 14 w) with
    | .instr i => some i
    | .unassigned _ => none

/-! ## Encoding (R110) -/

/-- The bit `d`. -/
def destBit (d : Dest) : BitVec 1 :=
  match d with
  | .w => 0
  | .f => 1

/-- `00 oooo dfff ffff` (R101). -/
def encodeByte (op : BitVec 4) (d : BitVec 1) (f : FileAddr) : InstrWord := 0b00#2 ++ op ++ d ++ f

/-- `01 oobb bfff ffff` (R102). -/
def encodeBit (op : BitVec 2) (b : BitNum) (f : FileAddr) : InstrWord := 0b01#2 ++ op ++ b ++ f

/-- `11 oooo kkkk kkkk` (R103). -/
def encodeLiteral (op : BitVec 4) (k : Byte) : InstrWord := 0b11#2 ++ op ++ k

/-- `10 okkk kkkk kkkk` (R104). -/
def encodeJump (op : BitVec 1) (k : BitVec 11) : InstrWord := 0b10#2 ++ op ++ k

/-- The canonical word of an instruction, every don't-care bit 0 (R107, R110). -/
def encode (i : Instr) : InstrWord :=
  match i with
  | .addwf f d => encodeByte 0b0111 (destBit d) f
  | .andwf f d => encodeByte 0b0101 (destBit d) f
  | .clrf f => encodeByte 0b0001 1 f
  | .clrw => 0b00000100000000
  | .comf f d => encodeByte 0b1001 (destBit d) f
  | .decf f d => encodeByte 0b0011 (destBit d) f
  | .decfsz f d => encodeByte 0b1011 (destBit d) f
  | .incf f d => encodeByte 0b1010 (destBit d) f
  | .incfsz f d => encodeByte 0b1111 (destBit d) f
  | .iorwf f d => encodeByte 0b0100 (destBit d) f
  | .movf f d => encodeByte 0b1000 (destBit d) f
  | .movwf f => encodeByte 0b0000 1 f
  | .nop => 0b00000000000000
  | .rlf f d => encodeByte 0b1101 (destBit d) f
  | .rrf f d => encodeByte 0b1100 (destBit d) f
  | .subwf f d => encodeByte 0b0010 (destBit d) f
  | .swapf f d => encodeByte 0b1110 (destBit d) f
  | .xorwf f d => encodeByte 0b0110 (destBit d) f
  | .bcf f b => encodeBit 0b00 b f
  | .bsf f b => encodeBit 0b01 b f
  | .btfsc f b => encodeBit 0b10 b f
  | .btfss f b => encodeBit 0b11 b f
  | .addlw k => encodeLiteral 0b1110 k
  | .andlw k => encodeLiteral 0b1001 k
  | .call k => encodeJump 0 k
  | .clrwdt => 0b00000001100100
  | .goto k => encodeJump 1 k
  | .iorlw k => encodeLiteral 0b1000 k
  | .movlw k => encodeLiteral 0b0000 k
  | .retfie => 0b00000000001001
  | .retlw k => encodeLiteral 0b0100 k
  | .ret => 0b00000000001000
  | .sleep => 0b00000001100011
  | .sublw k => encodeLiteral 0b1100 k
  | .xorlw k => encodeLiteral 0b1010 k
  | .option => 0b00000001100010
  | .tris n => 0b00000001100#11 ++ n

/-- The don't-care bits of an instruction's word (R107): bits 6:5 of NOP, 6:0 of CLRW, 9:8 of MOVLW and RETLW,
8 of SUBLW and ADDLW. -/
def dontCareBits (i : Instr) : InstrWord :=
  match i with
  | .addwf _ _ => 0
  | .andwf _ _ => 0
  | .clrf _ => 0
  | .clrw => 0x007F
  | .comf _ _ => 0
  | .decf _ _ => 0
  | .decfsz _ _ => 0
  | .incf _ _ => 0
  | .incfsz _ _ => 0
  | .iorwf _ _ => 0
  | .movf _ _ => 0
  | .movwf _ => 0
  | .nop => 0x0060
  | .rlf _ _ => 0
  | .rrf _ _ => 0
  | .subwf _ _ => 0
  | .swapf _ _ => 0
  | .xorwf _ _ => 0
  | .bcf _ _ => 0
  | .bsf _ _ => 0
  | .btfsc _ _ => 0
  | .btfss _ _ => 0
  | .addlw _ => 0x0100
  | .andlw _ => 0
  | .call _ => 0
  | .clrwdt => 0
  | .goto _ => 0
  | .iorlw _ => 0
  | .movlw _ => 0x0300
  | .retfie => 0
  | .retlw _ => 0x0300
  | .ret => 0
  | .sleep => 0
  | .sublw _ => 0x0100
  | .xorlw _ => 0
  | .option => 0
  | .tris _ => 0

end Sys2Proof
end

