-- ==== Sys2Proof/Config.lean ====
section
/-! DEFINITION. What an implementation fixes (spec/00_scope.md R7) and the free values.
The parameters of R7 are one plain structure, carried in the state and changed by no step, so that a claim can
quantify over them (log 2). The values of profile P84 are in Machine/Profile.lean. -/

namespace Sys2Proof

/-- The I/O ports, by the numbers TRIS and the register map give them: 5, 6 and 7 (R36, R72). Port C exists
only where `Config.portC` says so; profile P84 has none (R221). -/
inductive PortId where
  | a
  | b
  | c
  deriving DecidableEq, Repr

/-- The events that request an interrupt: the four of profile P84 (R236), and any other source a configuration
gives the part, whose flag the environment sets (R235). -/
inductive IntSource where
  | int
  | t0
  | rb
  | ee
  | other (n : Nat)
  deriving DecidableEq, Repr

/-- Where an enable or flag bit lies (R235, R236): a bit of INTCON, or EEIF of EECON1. -/
inductive BitPlace where
  | intcon (n : BitVec 3)
  | eeif
  deriving DecidableEq, Repr

/-- One interrupt source of `INT_SOURCES`, with its flag bit `IF(s)` and its enable bit `IE(s)` (R7, R235). -/
structure IntLine where
  source : IntSource
  flag : BitPlace
  enable : BitPlace
  deriving DecidableEq, Repr

/-- A condition that ends a run: the candidates of R7 `END_OF_RUN` (D22, log 37). -/
inductive EndOfRun where
  /-- Asleep, and nothing can wake the core. -/
  | asleep
  /-- A GOTO to its own address. -/
  | selfGoto
  /-- `n` steps have been taken. -/
  | steps (n : Nat)
  /-- A model-level fault or refusal. -/
  | stop
  deriving DecidableEq, Repr

/-- The registers of the data EEPROM, a device the spec does not model (R5, R40, U15). -/
inductive DeviceReg where
  | eedata
  | eeadr
  | eecon1
  | eecon2
  deriving DecidableEq, Repr

/-- What stands behind a data address: the kinds of REGMAP (R67), and INDF, which is no physical register
(R40, R66). `gpr i` is general purpose register number `i`. -/
inductive RegKind where
  | gpr (i : Nat)
  | indf
  | tmr0
  | pcl
  | status
  | fsr
  | pclath
  | intcon
  | option
  | port (p : PortId)
  | tris (p : PortId)
  | unimplemented
  | device (name : DeviceReg)
  | refused
  deriving DecidableEq, Repr

/-- One line of REGMAP: the data addresses `lo` to `hi`, both included. A region of kind `gpr i` holds the
registers `i`, `i + 1`, … from its lowest address up (R40). -/
structure Region where
  lo : Nat
  hi : Nat
  kind : RegKind
  deriving DecidableEq, Repr

/-- Bit positions in the STATUS register (R7 `STATUS_LAYOUT`, D4). -/
structure StatusLayout where
  c : Nat
  dc : Nat
  z : Nat
  pdBit : Nat
  toBit : Nat
  rp0 : Nat
  rp1 : Nat
  irp : Nat
  deriving DecidableEq, Repr

/-- R7 `STACK_OVERFLOW`: what a push on a full stack or a pop of an empty one does (D8, log 11). -/
inductive StackMode where
  /-- A named fault of the model: the spec's rule (R32, R33). -/
  | fault
  /-- The hardware's circular buffer: a push overwrites the oldest entry, a pop of an empty stack loads
  whatever the buffer holds there (general knowledge in R32, R33). -/
  | circular
  deriving DecidableEq, Repr

/-- The parameters of R7, all plain data. -/
structure Config where
  /-- `REGMAP`; `GPR_TOP` is a part of it. An address in no region is `refused` (R67). -/
  regmap : List Region
  /-- `BANK_BITS`: true for one bank bit, RP0; false for none (R65). -/
  bankBit : Bool
  /-- `HAS_INDIRECT` (R66). -/
  hasIndirect : Bool
  /-- `STATUS_LAYOUT` (R41). -/
  statusLayout : StatusLayout
  /-- `STACK_DEPTH` (R31). -/
  stackDepth : Nat
  /-- `STACK_OVERFLOW` (R32, R33). -/
  stackMode : StackMode
  /-- `PROG_WORDS`, informative (R61, D11): read by `Sys2Proof.programFits` only. -/
  progWords : Nat
  /-- `RESET_VECTOR` (R260). -/
  resetVector : ProgAddr
  /-- `INT_VECTOR` (R238). -/
  intVector : ProgAddr
  /-- `INT_SOURCES`, each source with its enable and flag bits (R235, log 38). -/
  intSources : List IntLine
  /-- The interrupt sources among `WAKE_EVENTS` (R247). Resets always end SLEEP, the Watchdog where it runs. -/
  wakeSources : List IntSource
  /-- `WDT_ENABLED`, OPEN in the spec (R244, D21, log 27). -/
  wdtEnabled : Bool
  /-- `WDT_MIN_CYCLES`, OPEN in the spec (R244, D21, log 27). -/
  wdtMinCycles : Nat
  /-- `END_OF_RUN`, OPEN in the spec (D22, log 37): the conditions that end a run, read by `Sys2Proof.runEnded`
  only. -/
  endOfRun : List EndOfRun
  /-- The optional refinement of R247: SLEEP acts as a NOP while an enabled request is pending (C21, log 15). -/
  sleepNopIfPending : Bool
  /-- The implemented bits of port A and TRIS[5]; none where the part lacks them (R36, U29). -/
  portA : Option Byte
  /-- The implemented bits of port B and TRIS[6]. -/
  portB : Option Byte
  /-- The implemented bits of port C and TRIS[7]. -/
  portC : Option Byte
  deriving DecidableEq, Repr

/-- A free value of 8 bits: the `n`-th one drawn. It has no body, so nothing can be proved of it (log 30). -/
opaque Config.freeByte : Nat → Byte

/-- A free program address: the `n`-th value drawn. It has no body, so nothing can be proved of it (log 30). -/
opaque Config.freeAddr : Nat → ProgAddr

end Sys2Proof
end

