-- ==== Sys2Proof/Machine/Profile.lean ====
section
/-! DEFINITION. Profile P84, the spec's default value of every parameter of R7: the register map of
spec/10_state.md R40, the layout of R41, and the defaults of spec/00_scope.md R7 (log 1). All of it is what the
spec marks as general knowledge (GK2 to GK25). -/

namespace Sys2Proof.Machine

/-- REGMAP of R40, given `GPR_TOP` and the highest address of bank 0. -/
def regmapP84 (gprTop : Nat) : List Region :=
  [⟨0x00, 0x00, .indf⟩, ⟨0x01, 0x01, .tmr0⟩, ⟨0x02, 0x02, .pcl⟩, ⟨0x03, 0x03, .status⟩,
   ⟨0x04, 0x04, .fsr⟩, ⟨0x05, 0x05, .port .a⟩, ⟨0x06, 0x06, .port .b⟩, ⟨0x07, 0x07, .unimplemented⟩,
   ⟨0x08, 0x08, .device .eedata⟩, ⟨0x09, 0x09, .device .eeadr⟩, ⟨0x0A, 0x0A, .pclath⟩,
   ⟨0x0B, 0x0B, .intcon⟩, ⟨0x0C, gprTop, .gpr 0x0C⟩, ⟨gprTop + 1, 0x7F, .unimplemented⟩,
   ⟨0x80, 0x80, .indf⟩, ⟨0x81, 0x81, .option⟩, ⟨0x82, 0x82, .pcl⟩, ⟨0x83, 0x83, .status⟩,
   ⟨0x84, 0x84, .fsr⟩, ⟨0x85, 0x85, .tris .a⟩, ⟨0x86, 0x86, .tris .b⟩, ⟨0x87, 0x87, .unimplemented⟩,
   ⟨0x88, 0x88, .device .eecon1⟩, ⟨0x89, 0x89, .device .eecon2⟩, ⟨0x8A, 0x8A, .pclath⟩,
   ⟨0x8B, 0x8B, .intcon⟩, ⟨0x8C, 0x80 + gprTop, .gpr 0x0C⟩,
   ⟨0x80 + gprTop + 1, 0xFF, .unimplemented⟩]

/-- STATUS layout of R41: IRP, RP1, RP0, TO, PD, Z, DC, C from bit 7 down. -/
def statusLayoutP84 : StatusLayout :=
  { c := 0, dc := 1, z := 2, pdBit := 3, toBit := 4, rp0 := 5, rp1 := 6, irp := 7 }

/-- The four interrupt sources of R236 with their flag and enable bits. -/
def intSourcesP84 : List IntLine :=
  [⟨.int, .intcon 1, .intcon 4⟩, ⟨.t0, .intcon 2, .intcon 5⟩, ⟨.rb, .intcon 0, .intcon 3⟩,
   ⟨.ee, .eeif, .intcon 6⟩]

/-- Profile P84 for the PIC16F84 and PIC16CR84: `GPR_TOP` 0x4F, 1024 program words (R7, R40, R61). -/
def p84 : Config :=
  { regmap := regmapP84 0x4F
    bankBit := true
    hasIndirect := true
    statusLayout := statusLayoutP84
    stackDepth := 8
    stackMode := .fault
    progWords := 1024
    resetVector := 0x0000
    intVector := 0x0004
    intSources := intSourcesP84
    wakeSources := [.int, .rb, .ee]
    wdtEnabled := true
    wdtMinCycles := 1
    endOfRun := []
    sleepNopIfPending := false
    portA := some 0x1F
    portB := some 0xFF
    portC := none }

/-- Profile P84 for the PIC16F83 and PIC16CR83: `GPR_TOP` 0x2F, 512 program words (R7, R40, R61). -/
def p83 : Config := { p84 with regmap := regmapP84 0x2F, progWords := 512 }

end Sys2Proof.Machine
end

