-- ==== Sys2Proof/Machine/State.lean ====
section
/-! DEFINITION. The state of the machine: everything spec/10_state.md names, the environment's coming choices
(spec/60_exceptions.md R251) and the model's own counters, all plain data; the named reasons a step can stop
(R231); and the state after reset (R47, R260). INVENTORY.md lists every field with its rule. -/

namespace Sys2Proof.Machine

/-- The named faults of the model (R231). The hardware raises none (R230); each stops the model where the
hardware would go on, and changes no state, so each is safe. -/
inductive Fault where
  /-- The fetch, when PC addresses a word the program does not define (R61, D11). Safe. -/
  | fetchOutsideProgram (a : ProgAddr)
  /-- CALL or interrupt entry with `STACK_DEPTH` entries on the stack, where `STACK_OVERFLOW` is `fault`
  (R32, D8). It records the address of the CALL, or the PC that was to be pushed. Safe. -/
  | stackOverflow (pc : ProgAddr)
  /-- RETURN, RETLW or RETFIE with the stack empty, where `STACK_OVERFLOW` is `fault` (R33, D8). Safe. -/
  | stackUnderflow (pc : ProgAddr)
  deriving DecidableEq, Repr

/-- The named refusals of the model: what spec/93_implementation_defined.md treats by `refuse`. Each stops the
model where the hardware would do something no source gives, so each is safe. -/
inductive Refusal where
  /-- An arm of `exec` that has no meaning yet. No arm of this model raises it. Safe. -/
  | notModelled (mnemonic : String)
  /-- The step, on one of the 372 words of R111 (U1, D10). Safe. -/
  | unassignedOpcode (pc : ProgAddr) (w : InstrWord)
  /-- DECFSZ or INCFSZ with PCL as destination, TRIS naming a register the part lacks (U12, U13). Safe. -/
  | refusedForm (pc : ProgAddr)
  /-- A file access to a data address that REGMAP maps to `Refused`, or to INDF where indirect addressing is
  not modelled (U14, U16). Safe. -/
  | refusedAddress (a : DataAddr)
  /-- A file access to a register of the data EEPROM (U15, R5). Safe. -/
  | refusedDevice (name : DeviceReg)
  deriving DecidableEq, Repr

/-! ## The environment's choices (R251, log 7) -/

/-- An environment step `Env(e)` (R251): it changes only the pins, the interrupt flags, TMR0 and the counters of
Timer0 and the Watchdog. -/
inductive EnvEvent where
  /-- The pins of port `p` now carry `v` (R72); port B compares it for the RB source (R236). -/
  | pins (p : PortId) (v : Byte)
  /-- An edge on pin RB0/INT, rising or falling (R236). -/
  | intEdge (rising : Bool)
  /-- The environment sets the flag of a source (R235). -/
  | raiseFlag (src : IntSource)
  /-- One edge on pin RA4/T0CKI offered to Timer0, through the prescaler (R242, R243). -/
  | timer0Edge (rising : Bool)
  /-- One count of the Watchdog's own oscillator (R244). -/
  | watchdogClock
  /-- `n` instruction-cycle times pass while the core sleeps (R244, log 19). -/
  | idle (n : Nat)
  deriving DecidableEq, Repr

/-- A reset the environment asserts (R260): power-on, or the MCLR pin. -/
inductive ResetLine where
  | powerOn
  | mclr
  deriving DecidableEq, Repr

/-- The causes of a reset (R260). -/
inductive ResetCause where
  | powerOn
  | mclr
  | mclrSleep
  | wdtReset
  deriving DecidableEq, Repr

/-- What the environment offers at one boundary between instructions (R237, R239). -/
structure Boundary where
  /-- A reset asserted at this boundary. -/
  reset : Option ResetLine
  /-- A Watchdog time-out at this boundary; it happens only where R244 admits one. -/
  wdtTimeout : Bool
  /-- An enabled interrupt entry or wake-up is put off past this boundary (R237). -/
  postpone : Bool
  deriving DecidableEq, Repr

/-- One choice of the environment: a step of its own, or what it offers at the next boundary (R251). -/
inductive Input where
  | env (e : EnvEvent)
  | boundary (b : Boundary)
  deriving DecidableEq, Repr

/-! ## Stores -/

/-- General purpose registers by number, in one canonical form (`Memory.wf`): numbers strictly rising, no entry
equal to what an unlisted register reads as (log 5). -/
abbrev Memory := List Host.Cell

/-- The program, a partial map from program addresses to words, addresses strictly rising (R60, log 6). -/
abbrev Program := List (Nat × InstrWord)

/-- An I/O port: its data latch, its TRIS register, and what the environment has put on the pins for the
next read: `none` where it has said nothing, and then the read is a free draw (R36, R39, R72, log 9). -/
structure Port where
  latch : Byte
  tris : Byte
  pins : Option Byte
  deriving DecidableEq, Repr

/-- The state of the machine. -/
structure State where
  /-- The parameters of R7, changed by no step (log 2). -/
  cfg : Config
  /-- PC: the address of the instruction to execute (R23). -/
  pc : ProgAddr
  /-- W (R20). -/
  w : Byte
  /-- The carry flag (R27). -/
  c : Bool
  /-- The digit carry flag (R28). -/
  dc : Bool
  /-- The zero flag (R29). -/
  z : Bool
  /-- PD, power-down, active low (R30). -/
  pdBit : Bool
  /-- TO, time-out, active low (R30). -/
  toBit : Bool
  /-- RP0, the bank bit of direct addressing (R41, R65). -/
  rp0 : Bool
  /-- RP1, not used by this part (R41). -/
  rp1 : Bool
  /-- IRP, not used by this part (R41). -/
  irp : Bool
  /-- PCLATH (R25, R44). -/
  pclath : BitVec 5
  /-- FSR (R39, R66). -/
  fsr : Byte
  /-- INTCON: GIE, EEIE, T0IE, INTE, RBIE, T0IF, INTF, RBIF (R34, R42). -/
  intcon : Byte
  /-- EEIF, EECON1<4>: an environment bit (R236, log 25). -/
  eeif : Bool
  /-- OPTION (R35, R43). -/
  optionReg : Byte
  /-- Port A and TRIS[5]. -/
  portA : Port
  /-- Port B and TRIS[6]. -/
  portB : Port
  /-- Port C and TRIS[7], which this part lacks (R221, log 24). -/
  portC : Port
  /-- The value latched at the last read of PORTB (R236). -/
  portbLast : Byte
  /-- TMR0 (R39, R242). -/
  tmr0 : Byte
  /-- Instruction cycles for which Timer0's increment is still inhibited (R242, log 20). -/
  tmr0Inhibit : Nat
  /-- The model's own: instruction cycles executed that Timer0's agent has still to act on, 0 between steps
  (R242, R266, log 20). -/
  timer0Due : Nat
  /-- WDT, the Watchdog counter (R37). -/
  wdt : Byte
  /-- WDTPS, the shared prescaler counter (R37, R243). -/
  wdtps : Byte
  /-- Instruction cycles since WDT was last cleared (R244). -/
  wdtAge : Nat
  /-- The SLEEP state (R38). -/
  sleeping : Bool
  /-- After an interrupt wake-up the word after SLEEP is executed before an entry (R247, log 17). -/
  afterWake : Bool
  /-- The return-address stack, TOS first (R31). -/
  stack : List ProgAddr
  /-- The general purpose registers (R21, R40). -/
  gpr : Memory
  /-- The program space (R45, R60). -/
  prog : Program
  /-- The model's own: instruction cycles executed (R266, log 21). -/
  cycles : Nat
  /-- The model's own: how many free values have been drawn (log 30). -/
  draws : Nat
  /-- The model's own: the environment's coming choices (R251, log 7). -/
  inputs : List Input
  deriving DecidableEq, Repr

/-- What a step of this machine answers. -/
abbrev Result := Host.Outcome State Fault Refusal

/-- The machine right after a power-on reset: the values of R47 and R260 under P84, and the named values of
log 3, 4, 5 and 27 where the spec gives none. No program is loaded (log 6) and the environment is silent (log 7). -/
def State.reset : State :=
  { cfg := p84
    pc := 0x0000
    w := 0x00
    c := false
    dc := false
    z := false
    pdBit := true
    toBit := true
    rp0 := false
    rp1 := false
    irp := false
    pclath := 0x00
    fsr := 0x00
    intcon := 0x00
    eeif := false
    optionReg := 0xFF
    portA := { latch := 0x00, tris := 0x1F, pins := none }
    portB := { latch := 0x00, tris := 0xFF, pins := none }
    portC := { latch := 0x00, tris := 0x00, pins := none }
    portbLast := 0x00
    tmr0 := 0x00
    tmr0Inhibit := 0
    timer0Due := 0
    wdt := 0x00
    wdtps := 0x00
    wdtAge := 0
    sleeping := false
    afterWake := false
    stack := []
    gpr := []
    prog := []
    cycles := 0
    draws := 0
    inputs := [] }

end Sys2Proof.Machine
end

