-- ==== Sys2Proof/Machine/Flags.lean ====
section
/-! DEFINITION. Every flag computation of the instruction set (spec/10_state.md R26 to R30, R48). -/

namespace Sys2Proof.Machine

/-- The "Status Affected" flags among C, DC, Z with their new values; `none` is a flag the instruction does not
affect (R26, R48). -/
structure FlagUpdate where
  c : Option Bool
  dc : Option Bool
  z : Option Bool
  deriving DecidableEq, Repr

/-- No flag affected. -/
def noFlags : FlagUpdate := { c := none, dc := none, z := none }

/-- `aff` is not empty (R64, R70). -/
def affectsAny (u : FlagUpdate) : Bool := u.c.isSome || u.dc.isSome || u.z.isSome

/-- The zero flag of a result (R29). -/
def zeroOf (r : Byte) : Bool := r == 0

/-- The low nibble, as a number (R28). -/
def nibble (v : Byte) : Nat := v.toNat % 16

/-- The carry out of bit 7 of `a + b + carry` (R27). -/
def carryOut (a b : Byte) (carry : Nat) : Bool := decide (256 ≤ a.toNat + b.toNat + carry)

/-- The carry out of bit 3 of `a + b + carry` (R28). -/
def digitCarryOut (a b : Byte) (carry : Nat) : Bool := decide (16 ≤ nibble a + nibble b + carry)

/-- C, DC and Z of the addition `a + b` (R27, R28, R29). -/
def addFlags (a b : Byte) : FlagUpdate :=
  { c := some (carryOut a b 0), dc := some (digitCarryOut a b 0), z := some (zeroOf (a + b)) }

/-- C, DC and Z of the subtraction `a - b`, computed as `a + (~b) + 1`: C and DC are set when there is no
borrow (R27, R28, R29). -/
def subFlags (a b : Byte) : FlagUpdate :=
  { c := some (carryOut a (~~~b) 1), dc := some (digitCarryOut a (~~~b) 1), z := some (zeroOf (a - b)) }

/-- Z alone, of the result `r` (R29). -/
def zFlag (r : Byte) : FlagUpdate := { c := none, dc := none, z := some (zeroOf r) }

/-- C alone (R27: RLF and RRF). -/
def cFlag (b : Bool) : FlagUpdate := { c := some b, dc := none, z := none }

/-- Give the affected flags their new values; the others keep theirs (R26). -/
def setFlags (u : FlagUpdate) (s : State) : State :=
  { s with c := u.c.getD s.c, dc := u.dc.getD s.dc, z := u.z.getD s.z }

end Sys2Proof.Machine
end

