-- ==== Sys2Proof/Machine/Memory.lean ====
section
/-! DEFINITION. The two stores as sparse lists in canonical form: reads, writes and well-formedness of the
general purpose registers (spec/20_memory.md R67) and of the program space (R60, R61). -/

namespace Sys2Proof.Machine

/-- The value listed at `a`, if any. -/
def cellRead {α : Type} (m : List (Nat × α)) (a : Nat) : Option α :=
  match m with
  | [] => none
  | (b, v) :: rest => if a = b then some v else cellRead rest a

/-- List `v` at `a`, in its place in the rising order, replacing what was listed there. -/
def cellInsert {α : Type} (m : List (Nat × α)) (a : Nat) (v : α) : List (Nat × α) :=
  match m with
  | [] => [(a, v)]
  | (b, u) :: rest =>
    if a < b then (a, v) :: (b, u) :: rest
    else if a = b then (a, v) :: rest
    else (b, u) :: cellInsert rest a v

/-- List nothing at `a`. -/
def cellErase {α : Type} (m : List (Nat × α)) (a : Nat) : List (Nat × α) :=
  match m with
  | [] => []
  | (b, u) :: rest => if a = b then cellErase rest a else (b, u) :: cellErase rest a

/-- The listed addresses are at least `lo` and strictly rising. -/
def risingFrom {α : Type} (lo : Nat) (m : List (Nat × α)) : Bool :=
  match m with
  | [] => true
  | (a, _) :: rest => decide (lo ≤ a) && risingFrom (a + 1) rest

/-- What an unlisted general purpose register reads as: 0x00 (DESIGN CHOICE, log 5). -/
def gprUnlisted : Byte := 0x00

/-- Read general purpose register `i` (R67: the stored value). -/
def gprRead (m : Memory) (i : Nat) : Byte := (cellRead m i).getD gprUnlisted

/-- Write general purpose register `i` (R67), keeping the canonical form. -/
def gprWrite (m : Memory) (i : Nat) (v : Byte) : Memory :=
  if v = gprUnlisted then cellErase m i else cellInsert m i v

/-- The canonical form: numbers strictly rising, and no entry equal to what an unlisted register reads as. -/
def Memory.wf (m : Memory) : Bool := risingFrom 0 m && m.all fun e => e.2 != gprUnlisted

/-- The word at a program address, if the program defines one (R60, R61). -/
def progRead (p : Program) (a : ProgAddr) : Option InstrWord := cellRead p a.toNat

/-- The program with word `w` at `a`. No instruction does this (R81): it stands for loading a program. -/
def progStore (p : Program) (a : ProgAddr) (w : InstrWord) : Program := cellInsert p a.toNat w

/-- The program's canonical form: addresses strictly rising and of 13 bits. -/
def Program.wf (p : Program) : Bool := risingFrom 0 p && p.all fun e => decide (e.1 < 0x2000)

end Sys2Proof.Machine
end

