-- ==== Sys2Proof/Machine/Ops.lean ====
section
/-! DEFINITION. The named operations over registers that every family shares: the advance of PC with its cycle
counts (spec/10_state.md R24, spec/70_reset_and_hazards.md R266), the stack (R31 to R33), the control registers
(R34 to R37), and the one entry of an interrupt with the return from it (spec/60_exceptions.md R238, R240). -/

namespace Sys2Proof.Machine

/-! ## Time and PC -/

/-- `n` instruction cycles pass: they are counted (R266), age the Watchdog (R244), and fall due for Timer0's agent,
which acts after the instruction (R242). -/
def tick (n : Nat) (s : State) : State :=
  { s with cycles := s.cycles + n, wdtAge := s.wdtAge + n, timer0Due := s.timer0Due + n }

/-- The default successor: `pc + 1` modulo 2^13, in one cycle (R12, R24, R266). -/
def advance (s : State) : State := tick 1 { s with pc := s.pc + 1 }

/-- A jump: PC is changed and a second cycle is executed as a NOP (R266). The first cycle is `advance`'s. -/
def jump (a : ProgAddr) (s : State) : State := tick 1 { s with pc := a }

/-- The skip: the word at the next address is discarded, not decoded and not executed, at the cost of one more
cycle. After `advance`, PC is `pc + 2` modulo 2^13 (R184). -/
def skipNext (s : State) : State := tick 1 { s with pc := s.pc + 1 }

/-- W takes a value (R20). -/
def setW (v : Byte) (s : State) : State := { s with w := v }

/-! ## The stack (R31 to R33, D8) -/

/-- `Push(v)` (R32). On a full stack: a fault, or, where `STACK_OVERFLOW` is circular, the oldest entry is
overwritten (log 11). -/
def push (v : ProgAddr) (s : State) : Except Fault State :=
  if s.stack.length < s.cfg.stackDepth then .ok { s with stack := v :: s.stack }
  else
    match s.cfg.stackMode with
    | .fault => .error (.stackOverflow s.pc)
    | .circular => .ok { s with stack := (v :: s.stack).take s.cfg.stackDepth }

/-- `Pop()` (R33). On an empty stack: a fault, or, where `STACK_OVERFLOW` is circular, a free value, whatever
the buffer holds there (log 11). -/
def pop (s : State) : Except Fault (ProgAddr × State) :=
  match s.stack with
  | v :: rest => .ok (v, { s with stack := rest })
  | [] =>
    match s.cfg.stackMode with
    | .fault => .error (.stackUnderflow s.pc)
    | .circular => .ok (Config.freeAddr s.draws, { s with draws := s.draws + 1 })

/-! ## Control registers -/

/-- GIE, INTCON<7> (R34). -/
def gie (s : State) : Bool := s.intcon.getLsbD 7

/-- GIE takes a value; the other bits of INTCON keep theirs (R34). -/
def setGie (b : Bool) (s : State) : State :=
  { s with intcon := if b then s.intcon ||| 0x80 else s.intcon &&& 0x7F }

/-- `PSA_TO_WDT`: OPTION<3>, set when the prescaler is assigned to the Watchdog (R37, R43, R243). -/
def psaToWdt (option : Byte) : Bool := option.getLsbD 3

/-- The prescaler rate PS2:PS0, OPTION<2:0> (R43). -/
def prescalerRate (option : Byte) : Nat := (option.extractLsb' 0 3).toNat

/-- OPTION takes a value (R35, R71). When that changes the prescaler's assignment, the count of WDTPS is a free
value afterwards (R243, U21, log 10). -/
def setOption (v : Byte) (s : State) : State :=
  { s with
    optionReg := v
    wdtps := if psaToWdt v = psaToWdt s.optionReg then s.wdtps else Config.freeByte s.draws
    draws := if psaToWdt v = psaToWdt s.optionReg then s.draws else s.draws + 1 }

/-- TMR0 takes a value: the prescaler is cleared if it is assigned to Timer0 (R73, D28), and the increment is
inhibited for the following two instruction cycles (R242). The write ends its own cycle and overrides the clock
of that cycle (log 20). -/
def writeTmr0 (v : Byte) (s : State) : State :=
  { s with
    tmr0 := v
    wdtps := if psaToWdt s.optionReg then s.wdtps else 0
    tmr0Inhibit := 2
    timer0Due := 0 }

/-- Clear WDT, and the prescaler while it is assigned to the Watchdog (R37, R205, R206, C22, log 22). -/
def clearWatchdog (s : State) : State :=
  { s with wdt := 0, wdtps := if psaToWdt s.optionReg then 0 else s.wdtps, wdtAge := 0 }

/-! ## Ports (R36, R72) -/

/-- The implemented bits of a port and its TRIS register, where the part has it. -/
def portBits (c : Config) (p : PortId) : Option Byte :=
  match p with
  | .a => c.portA
  | .b => c.portB
  | .c => c.portC

/-- The implemented bits, none where the part lacks the port (U29). -/
def portMask (c : Config) (p : PortId) : Byte := (portBits c p).getD 0

/-- A port's registers. -/
def getPort (p : PortId) (s : State) : Port :=
  match p with
  | .a => s.portA
  | .b => s.portB
  | .c => s.portC

/-- A port's registers take new values. -/
def setPort (p : PortId) (q : Port) (s : State) : State :=
  { s with
    portA := if p = .a then q else s.portA
    portB := if p = .b then q else s.portB
    portC := if p = .c then q else s.portC }

/-- `TRIS[p]` takes the implemented bits of a value (R36, R71, R221). -/
def writeTris (p : PortId) (v : Byte) (s : State) : State :=
  setPort p { getPort p s with tris := v &&& portMask s.cfg p } s

/-- A port's data latch takes the implemented bits of a value (R72). -/
def writeLatch (p : PortId) (v : Byte) (s : State) : State :=
  setPort p { getPort p s with latch := v &&& portMask s.cfg p } s

/-! ## Interrupts (R233 to R240) -/

/-- The bit at a place (R235). -/
def placeBit (p : BitPlace) (s : State) : Bool :=
  match p with
  | .intcon n => s.intcon.getLsbD n.toNat
  | .eeif => s.eeif

/-- The bit at a place is set (R235). -/
def setPlace (p : BitPlace) (s : State) : State :=
  match p with
  | .intcon n => { s with intcon := s.intcon ||| 1#8 <<< n.toNat }
  | .eeif => { s with eeif := true }

/-- A source is enabled and flagged: `IE(s) AND IF(s)` (R235). -/
def lineRequests (l : IntLine) (s : State) : Bool := placeBit l.enable s && placeBit l.flag s

/-- The flag bits of a source are set, among the given lines. -/
def raiseLines (ls : List IntLine) (src : IntSource) (s : State) : State :=
  match ls with
  | [] => s
  | l :: rest => raiseLines rest src (if l.source = src then setPlace l.flag s else s)

/-- `IF(s)` is set, whatever the enables are (R235, R236); a source outside `INT_SOURCES` has no flag. -/
def raiseIntFlag (src : IntSource) (s : State) : State := raiseLines s.cfg.intSources src s

/-- `IntReq`: some source of `INT_SOURCES` is enabled and flagged (R235). -/
def intReq (s : State) : Bool := s.cfg.intSources.any fun l => lineRequests l s

/-- A waking source is enabled and flagged, whatever GIE is (R247). -/
def wakeReq (s : State) : Bool :=
  s.cfg.intSources.any fun l => s.cfg.wakeSources.contains l.source && lineRequests l s

/-- INTERRUPT ENTRY, the one exception entry of the machine (R238): PC, the address of the next instruction, is
pushed, GIE is cleared, PC goes to `INT_VECTOR`. Nothing else is saved or changed; two cycles are counted
(R266, log 21). A full stack is the fault of `push`. -/
def takeInterrupt (s : State) : Result :=
  match push s.pc s with
  | .error f => .fault f
  | .ok s1 => .next (tick 2 { setGie false s1 with pc := s1.cfg.intVector })

/-- RETURN FROM INTERRUPT (R204, R240): the return address is popped into PC and GIE is set; nothing else is
restored. An empty stack is the fault of `pop`, and then GIE is not changed either. -/
def returnFromInterrupt (s : State) : Result :=
  match pop s with
  | .error f => .fault f
  | .ok (t, s1) => .next (jump t (advance (setGie true s1)))

/-- RETURN (R202): the return address is popped into PC. -/
def returnFromSubroutine (s : State) : Result :=
  match pop s with
  | .error f => .fault f
  | .ok (t, s1) => .next (jump t (advance s1))

end Sys2Proof.Machine
end

