-- ==== Sys2Proof/Machine/Operands.lean ====
section
/-! DEFINITION. Every operand form (spec/20_memory.md R75): the data address of `f` (R65, R66), the register
behind it (REGMAP, R67), reading and writing it with every special case (R68 to R73), the destination `d` (R74),
bit operands, program addresses and TRIS numbers. -/

namespace Sys2Proof.Machine

/-! ## Data addresses (R65, R66) and the register map (R67) -/

/-- `DataAddr(f)`: FSR when `f` is 0x00 and indirect addressing is modelled, else the bank bit above `f`. -/
def dataAddr (f : FileAddr) (s : State) : DataAddr :=
  if s.cfg.hasIndirect && f == 0 then s.fsr
  else BitVec.ofBool (s.cfg.bankBit && s.rp0) ++ f

/-- The kind of the register at an offset inside a region (R40). -/
def kindAt (k : RegKind) (offset : Nat) : RegKind :=
  match k with
  | .gpr i => .gpr (i + offset)
  | k => k

/-- Look an address up in REGMAP; an address in no region is `refused` (R67). -/
def lookupKind (m : List Region) (a : Nat) : RegKind :=
  match m with
  | [] => .refused
  | r :: rest => if decide (r.lo ≤ a) && decide (a ≤ r.hi) then kindAt r.kind (a - r.lo) else lookupKind rest a

/-- `REGMAP(a)` (R67). -/
def regKind (c : Config) (a : DataAddr) : RegKind := lookupKind c.regmap a.toNat

/-- Why an access to a data address is refused, if it is (R67, R66 for INDF without indirect addressing). -/
def accessRefusal (c : Config) (a : DataAddr) : Option Refusal :=
  match regKind c a with
  | .device name => some (.refusedDevice name)
  | .refused => some (.refusedAddress a)
  | .indf => if c.hasIndirect then none else some (.refusedAddress a)
  | _ => none

/-! ## STATUS as a register (R70) -/

/-- One bit at a position of a byte. -/
def bitAt (b : Bool) (n : Nat) : Byte := if b then 1#8 <<< n else 0#8

/-- The 8 bits of STATUS (R41, R70): `IRP : RP1 : RP0 : TO : PD : Z : DC : C` under P84. -/
def statusByte (s : State) : Byte :=
  bitAt s.irp s.cfg.statusLayout.irp ||| bitAt s.rp1 s.cfg.statusLayout.rp1 |||
  bitAt s.rp0 s.cfg.statusLayout.rp0 ||| bitAt s.toBit s.cfg.statusLayout.toBit |||
  bitAt s.pdBit s.cfg.statusLayout.pdBit ||| bitAt s.z s.cfg.statusLayout.z |||
  bitAt s.dc s.cfg.statusLayout.dc ||| bitAt s.c s.cfg.statusLayout.c

/-- A write to STATUS (R70). The bank bits take their new values; Z, DC and C do so only when the instruction
affects none of them; TO and PD are never writable. -/
def writeStatus (v : Byte) (affected : Bool) (s : State) : State :=
  { s with
    irp := v.getLsbD s.cfg.statusLayout.irp
    rp1 := v.getLsbD s.cfg.statusLayout.rp1
    rp0 := v.getLsbD s.cfg.statusLayout.rp0
    z := if affected then s.z else v.getLsbD s.cfg.statusLayout.z
    dc := if affected then s.dc else v.getLsbD s.cfg.statusLayout.dc
    c := if affected then s.c else v.getLsbD s.cfg.statusLayout.c }

/-! ## Reading a register (R67 to R73) -/

/-- The value on the implemented pins of a port at this read: what the environment put there, else a free draw
(R72, D27, U8, log 9); unimplemented bits are 0 (R40). -/
def portValue (p : PortId) (s : State) : Byte :=
  ((getPort p s).pins.getD (Config.freeByte s.draws)) &&& portMask s.cfg p

/-- `MemRead(a, 1)`: the value read. PCL gives the low byte of the next instruction's address (R68), a port the
value on its pins, unimplemented bits 0 (R72, R40), INDF behind INDF 0x00 (R66), an unimplemented address 0x00. -/
def memRead (a : DataAddr) (s : State) : Byte :=
  match regKind s.cfg a with
  | .gpr i => gprRead s.gpr i
  | .indf => 0
  | .tmr0 => s.tmr0
  | .pcl => (s.pc + 1).setWidth 8
  | .status => statusByte s
  | .fsr => s.fsr
  | .pclath => s.pclath.setWidth 8
  | .intcon => s.intcon
  | .option => s.optionReg
  | .port p => portValue p s
  | .tris p => (getPort p s).tris
  | .unimplemented => 0
  | .device _ => 0
  | .refused => 0

/-- What reading a port leaves behind: the next read is a fresh draw unless the environment speaks again (R72,
D27, U8, log 9), and a read of PORTB latches the value read for the RB source (R236, R63). -/
def readPort (p : PortId) (s : State) : State :=
  { setPort p { getPort p s with pins := none } s with
    portbLast := if p = .b then portValue p s else s.portbLast
    draws := s.draws + 1 }

/-- The side effect of reading a register: only a port read has one (R77). -/
def readEffect (a : DataAddr) (s : State) : State :=
  match regKind s.cfg a with
  | .port p => readPort p s
  | _ => s

/-! ## Writing a register (R67 to R73) -/

/-- `MemWrite(a, 1, v)` by an instruction that affects some of C, DC, Z (`affected`) or none of them. A write to
PCL is a computed jump to `PCLATH<4:0> : v` in a second cycle (R69); INDF behind INDF and an unimplemented
address ignore the write (R66, R67). -/
def memWrite (a : DataAddr) (v : Byte) (affected : Bool) (s : State) : State :=
  match regKind s.cfg a with
  | .gpr i => { s with gpr := gprWrite s.gpr i v }
  | .indf => s
  | .tmr0 => writeTmr0 v s
  | .pcl => jump (s.pclath ++ v) s
  | .status => writeStatus v affected s
  | .fsr => { s with fsr := v }
  | .pclath => { s with pclath := v.setWidth 5 }
  | .intcon => { s with intcon := v }
  | .option => setOption v s
  | .port p => writeLatch p v s
  | .tris p => writeTris p v s
  | .unimplemented => s
  | .device _ => s
  | .refused => s

/-- `WriteDest(d, f, v, aff)` at the data address formed from `f` (R74, R64). -/
def writeDest (d : Dest) (a : DataAddr) (v : Byte) (affected : Bool) (s : State) : State :=
  match d with
  | .w => setW v s
  | .f => memWrite a v affected s

/-! ## The shapes of the file register instructions -/

/-- Read `f` and go on with its data address, formed once (R64), the value read and the state after the read; a
refused address ends the instruction (R67, R158). Every instruction with an `f` operand reads it (R63). -/
def withFile (f : FileAddr) (s : State) (k : DataAddr → Byte → State → Result) : Result :=
  match accessRefusal s.cfg (dataAddr f s) with
  | some r => .refused r
  | none => k (dataAddr f s) (memRead (dataAddr f s) s) (readEffect (dataAddr f s) s)

/-- Read `f`, compute, write the destination, then set the affected flags (R159). PC is advanced before the
write, so that a write to PCL decides it. -/
def fileToDest (f : FileAddr) (d : Dest) (op : Byte → Byte × FlagUpdate) (s : State) : Result :=
  withFile f s fun a v s1 =>
    .next (setFlags (op v).2 (writeDest d a (op v).1 (affectsAny (op v).2) (advance s1)))

/-- As `fileToDest` for DECFSZ and INCFSZ: no flag is affected, and the next instruction is skipped when the
result is zero (R146, R148, R184). PCL as destination is refused before the read (R69, R232, D29). -/
def fileToDestSkip (f : FileAddr) (d : Dest) (op : Byte → Byte) (s : State) : Result :=
  if decide (d = .f) && decide (regKind s.cfg (dataAddr f s) = .pcl) then .refused (.refusedForm s.pc)
  else
    withFile f s fun a v s1 =>
      if op v = 0 then .next (skipNext (writeDest d a (op v) false (advance s1)))
      else .next (writeDest d a (op v) false (advance s1))

/-- Read `f` and skip the next instruction when the bit `b` read has the value `on` (R182, R183, R184). -/
def testSkip (f : FileAddr) (b : BitNum) (on : Bool) (s : State) : Result :=
  withFile f s fun _ v s1 =>
    if v.getLsbD b.toNat = on then .next (skipNext (advance s1)) else .next (advance s1)

/-- W takes the result of an operation on W and a literal, and the affected flags their values (R190 to R195). -/
def literalToW (r : Byte) (u : FlagUpdate) (s : State) : Result := .next (setFlags u (setW r (advance s)))

/-! ## Bits, program addresses, TRIS numbers (R75) -/

/-- The byte with bit `b` alone set, `1 << b` (R180, R181). -/
def bitMask (b : BitNum) : Byte := 1#8 <<< b.toNat

/-- The target of CALL and GOTO: `PCLATH<4:3> : k` (R200, R201). -/
def jumpTarget (k : BitVec 11) (s : State) : ProgAddr := s.pclath.extractLsb' 3 2 ++ k

/-- The port whose TRIS register the TRIS number names (R36, R221); none outside 5 to 7. -/
def trisPort (n : BitVec 3) : Option PortId :=
  match n.toNat with
  | 5 => some .a
  | 6 => some .b
  | 7 => some .c
  | _ => none

end Sys2Proof.Machine
end

