-- ==== Sys2Proof/Machine/BitOriented.lean ====
section
/-! DEFINITION. The four bit-oriented file register operations (spec/41_bit_oriented.md R180 to R184). -/

namespace Sys2Proof.Machine

/-- BCF (R180): the whole register is read and written back with bit b cleared; no flag. -/
def execBcf (f : FileAddr) (b : BitNum) (s : State) : Result :=
  fileToDest f .f (fun a => (a &&& ~~~(bitMask b), noFlags)) s

/-- BSF (R181): the whole register is read and written back with bit b set; no flag. -/
def execBsf (f : FileAddr) (b : BitNum) (s : State) : Result :=
  fileToDest f .f (fun a => (a ||| bitMask b, noFlags)) s

/-- BTFSC (R182): skip when bit b of the register is 0; nothing is written. -/
def execBtfsc (f : FileAddr) (b : BitNum) (s : State) : Result := testSkip f b false s

/-- BTFSS (R183): skip when bit b of the register is 1; nothing is written. -/
def execBtfss (f : FileAddr) (b : BitNum) (s : State) : Result := testSkip f b true s

end Sys2Proof.Machine
end

