-- ==== Sys2Proof/Machine/ByteOriented.lean ====
section
/-! DEFINITION. The 18 byte-oriented file register operations (spec/40_byte_oriented.md R140 to R160). In each,
`a` is the value read from the file register; W and C are those before the instruction. -/

namespace Sys2Proof.Machine

/-- ADDWF (R140): W plus f; C, DC, Z. -/
def execAddwf (f : FileAddr) (d : Dest) (s : State) : Result :=
  fileToDest f d (fun a => (s.w + a, addFlags s.w a)) s

/-- ANDWF (R141): W AND f; Z. -/
def execAndwf (f : FileAddr) (d : Dest) (s : State) : Result :=
  fileToDest f d (fun a => (s.w &&& a, zFlag (s.w &&& a))) s

/-- CLRF (R142): 0 to f, after the read of Q2; Z is set. -/
def execClrf (f : FileAddr) (s : State) : Result := fileToDest f .f (fun _ => (0, zFlag 0)) s

/-- CLRW (R143): 0 to W; Z is set. No file register is accessed. -/
def execClrw (s : State) : Result := literalToW 0 (zFlag 0) s

/-- COMF (R144): the one's complement of f; Z. -/
def execComf (f : FileAddr) (d : Dest) (s : State) : Result := fileToDest f d (fun a => (~~~a, zFlag (~~~a))) s

/-- DECF (R145): f minus 1 modulo 256; Z alone. -/
def execDecf (f : FileAddr) (d : Dest) (s : State) : Result := fileToDest f d (fun a => (a - 1, zFlag (a - 1))) s

/-- DECFSZ (R146): f minus 1 modulo 256; skip when the result is 0; no flag. -/
def execDecfsz (f : FileAddr) (d : Dest) (s : State) : Result := fileToDestSkip f d (fun a => a - 1) s

/-- INCF (R147): f plus 1 modulo 256; Z alone. -/
def execIncf (f : FileAddr) (d : Dest) (s : State) : Result := fileToDest f d (fun a => (a + 1, zFlag (a + 1))) s

/-- INCFSZ (R148): f plus 1 modulo 256; skip when the result is 0; no flag. -/
def execIncfsz (f : FileAddr) (d : Dest) (s : State) : Result := fileToDestSkip f d (fun a => a + 1) s

/-- IORWF (R149): W OR f; Z. -/
def execIorwf (f : FileAddr) (d : Dest) (s : State) : Result :=
  fileToDest f d (fun a => (s.w ||| a, zFlag (s.w ||| a))) s

/-- MOVF (R150): f itself, written back where d is f; Z. -/
def execMovf (f : FileAddr) (d : Dest) (s : State) : Result := fileToDest f d (fun a => (a, zFlag a)) s

/-- MOVWF (R151): W to f, after the read of Q2; no flag. -/
def execMovwf (f : FileAddr) (s : State) : Result := fileToDest f .f (fun _ => (s.w, noFlags)) s

/-- NOP (R152): only PC advances. -/
def execNop (s : State) : Result := .next (advance s)

/-- RLF (R153): the 9-bit rotate left of C and f; C takes bit 7. -/
def execRlf (f : FileAddr) (d : Dest) (s : State) : Result :=
  fileToDest f d (fun a => (a.extractLsb' 0 7 ++ BitVec.ofBool s.c, cFlag (a.getLsbD 7))) s

/-- RRF (R154): the 9-bit rotate right of C and f; C takes bit 0. -/
def execRrf (f : FileAddr) (d : Dest) (s : State) : Result :=
  fileToDest f d (fun a => (BitVec.ofBool s.c ++ a.extractLsb' 1 7, cFlag (a.getLsbD 0))) s

/-- SUBWF (R155): f minus W by the 2's complement method; C, DC, Z. -/
def execSubwf (f : FileAddr) (d : Dest) (s : State) : Result :=
  fileToDest f d (fun a => (a - s.w, subFlags a s.w)) s

/-- SWAPF (R156): the nibbles of f exchanged; no flag. -/
def execSwapf (f : FileAddr) (d : Dest) (s : State) : Result :=
  fileToDest f d (fun a => (a.extractLsb' 0 4 ++ a.extractLsb' 4 4, noFlags)) s

/-- XORWF (R157): W XOR f; Z. -/
def execXorwf (f : FileAddr) (d : Dest) (s : State) : Result :=
  fileToDest f d (fun a => (s.w ^^^ a, zFlag (s.w ^^^ a))) s

end Sys2Proof.Machine
end

