-- ==== Sys2Proof/Machine/Control.lean ====
section
/-! DEFINITION. The control operations (spec/43_control.md R200 to R206). -/

namespace Sys2Proof.Machine

/-- CALL (R200): `pc + 1` is pushed, then PC goes to `PCLATH<4:3> : k`. -/
def execCall (k : BitVec 11) (s : State) : Result :=
  match push (s.pc + 1) s with
  | .error e => .fault e
  | .ok s1 => .next (jump (jumpTarget k s) (advance s1))

/-- GOTO (R201): PC goes to `PCLATH<4:3> : k`. -/
def execGoto (k : BitVec 11) (s : State) : Result := .next (jump (jumpTarget k s) (advance s))

/-- RETURN (R202): PC is popped from the stack. -/
def execReturn (s : State) : Result := returnFromSubroutine s

/-- RETLW (R203): PC is popped from the stack and W takes k; where the pop faults W is unchanged. -/
def execRetlw (k : Byte) (s : State) : Result :=
  match pop s with
  | .error e => .fault e
  | .ok (t, s1) => .next (jump t (advance (setW k s1)))

/-- RETFIE (R204): PC is popped from the stack and GIE is set. -/
def execRetfie (s : State) : Result := returnFromInterrupt s

/-- CLRWDT (R205): WDT and its prescaler are cleared, TO and PD are set. -/
def execClrwdt (s : State) : Result :=
  .next { clearWatchdog (advance s) with toBit := true, pdBit := true }

/-- SLEEP (R206): WDT and its prescaler are cleared, TO is set, PD is cleared, and the core sleeps with PC at
the next word. Only where the configuration asks for the optional refinement of R247 does it act as a NOP while
an enabled request is pending (C21, log 15). -/
def execSleep (s : State) : Result :=
  if s.cfg.sleepNopIfPending && intReq s then .next (advance s)
  else .next { clearWatchdog (advance s) with toBit := true, pdBit := false, sleeping := true }

end Sys2Proof.Machine
end

