-- ==== Sys2Proof/Machine/Literal.lean ====
section
/-! DEFINITION. The six literal operations on W (spec/42_literal.md R190 to R195). None accesses a file register
and none can stop. -/

namespace Sys2Proof.Machine

/-- ADDLW (R190): W plus k; C, DC, Z. -/
def execAddlw (k : Byte) (s : State) : Result := literalToW (s.w + k) (addFlags s.w k) s

/-- ANDLW (R191): W AND k; Z. -/
def execAndlw (k : Byte) (s : State) : Result := literalToW (s.w &&& k) (zFlag (s.w &&& k)) s

/-- IORLW (R192): W OR k; Z. -/
def execIorlw (k : Byte) (s : State) : Result := literalToW (s.w ||| k) (zFlag (s.w ||| k)) s

/-- MOVLW (R193): k; no flag. -/
def execMovlw (k : Byte) (s : State) : Result := literalToW k noFlags s

/-- SUBLW (R194): k minus W, the literal being the minuend; C, DC, Z. -/
def execSublw (k : Byte) (s : State) : Result := literalToW (k - s.w) (subFlags k s.w) s

/-- XORLW (R195): W XOR k; Z. -/
def execXorlw (k : Byte) (s : State) : Result := literalToW (s.w ^^^ k) (zFlag (s.w ^^^ k)) s

end Sys2Proof.Machine
end

