-- ==== Sys2Proof/Machine/OptionTris.lean ====
section
/-! DEFINITION. The compatibility instructions OPTION and TRIS (spec/44_option_tris.md R220, R221). -/

namespace Sys2Proof.Machine

/-- OPTION (R220): W to OPTION, with the same effect as a write to its file address. -/
def execOption (s : State) : Result := .next (setOption s.w (advance s))

/-- TRIS (R221): W to the TRIS register the number names, restricted to the bits it implements. A register the
part lacks is refused (D25); under P84 that is TRIS 7. -/
def execTris (n : BitVec 3) (s : State) : Result :=
  match trisPort n with
  | none => .refused (.refusedForm s.pc)
  | some p =>
    match portBits s.cfg p with
    | none => .refused (.refusedForm s.pc)
    | some _ => .next (writeTris p s.w (advance s))

end Sys2Proof.Machine
end

