-- ==== Sys2Proof/Machine/Environment.lean ====
section
/-! DEFINITION. The agents beside the core. Those that act after each instruction, between core instructions:
Timer0 on the instruction-cycle clock with the prescaler (spec/60_exceptions.md R242, R243) and the RB source
(R236). And the steps of the environment, `Env(e)` (R251): pins and interrupt flags (R235, R236), Timer0's
external clock, and the Watchdog's own clock (R244). -/

namespace Sys2Proof.Machine

/-- `Tmr0Tick` (R242): TMR0 counts up modulo 256, and T0IF is set when it becomes 0. -/
def tmr0Tick (s : State) : State :=
  if s.tmr0 + 1 = 0 then raiseIntFlag .t0 { s with tmr0 := 0 } else { s with tmr0 := s.tmr0 + 1 }

/-- The increment of TMR0, unless a write within the last two instruction cycles inhibits it (R242). -/
def tmr0Count (s : State) : State := if s.tmr0Inhibit = 0 then tmr0Tick s else s

/-- The count at which the prescaler assigned to Timer0 passes a clock on: every `2^(PS+1)`-th (R242, R243). -/
def prescalerPasses (count : Byte) (rate : Nat) : Bool := count.toNat % 2 ^ (rate + 1) == 0

/-- One clock of Timer0's selected source (R242): direct where the prescaler is assigned to the Watchdog, else
once per `2^(PS+1)` clocks through WDTPS. -/
def timer0Clock (s : State) : State :=
  if psaToWdt s.optionReg then tmr0Count s
  else if prescalerPasses (s.wdtps + 1) (prescalerRate s.optionReg) then
    tmr0Count { s with wdtps := s.wdtps + 1 }
  else { s with wdtps := s.wdtps + 1 }

/-- OPTION<5>, T0CS: Timer0 is clocked from pin RA4/T0CKI (R43). -/
def t0cs (s : State) : Bool := s.optionReg.getLsbD 5

/-- OPTION<4>, T0SE: the falling edge counts (R43, R242). -/
def t0se (s : State) : Bool := s.optionReg.getLsbD 4

/-- OPTION<6>, INTEDG: the rising edge of RB0/INT counts (R43, R236). -/
def intedg (s : State) : Bool := s.optionReg.getLsbD 6

/-! ## Timer0's agent on the instruction-cycle clock (R242, R266) -/

/-- Timer0's part in one instruction cycle: with T0CS = 0 the cycle is its clock, but for a sleeping core; and one
cycle of the inhibit is over (R242, R247). -/
def timer0Cycle (s : State) : State :=
  if t0cs s || s.sleeping then { s with tmr0Inhibit := s.tmr0Inhibit - 1 }
  else { timer0Clock s with tmr0Inhibit := s.tmr0Inhibit - 1 }

/-- Timer0's part in `n` instruction cycles. -/
def timer0Cycles (n : Nat) (s : State) : State :=
  match n with
  | 0 => s
  | n + 1 => timer0Cycles n (timer0Cycle s)

/-- Timer0's agent acts on the instruction cycles that are due (R242: scheduled by the counts of R266). -/
def timer0Acts (s : State) : State := { timer0Cycles s.timer0Due s with timer0Due := 0 }

/-! ## The RB source (R236) -/

/-- The bits in which the value on the pins of port B, where it is known, differs from the value latched at the
last read of PORTB (R236). -/
def portbDiffers (s : State) : Byte :=
  match s.portB.pins with
  | some v => v ^^^ s.portbLast
  | none => 0

/-- The condition of the RB source (R236): on one of RB7:RB4 that is an input, the value on the pins differs from
the value latched at the last read, or a read has just found one that differs from the value `last` latched
before it. -/
def rbCondition (last : Byte) (s : State) : Bool :=
  ((portbDiffers s ||| (s.portbLast ^^^ last)) &&& s.portB.tris &&& 0xF0) != 0

/-- RBIF is set while the condition of the RB source stands (R236). -/
def rbSense (last : Byte) (s : State) : State := if rbCondition last s then raiseIntFlag .rb s else s

/-- What the agents do after an instruction or an interrupt entry that began at `before` and ended at `s`: the RB
source looks at the pins, and Timer0 takes the cycles executed (R235, R242, D14). -/
def agentsAct (before s : State) : State := timer0Acts (rbSense before.portbLast s)

/-- An instruction or an entry, and then the agents; a step that stops changes nothing (R231). -/
def thenAgents (before : State) (o : Result) : Result :=
  match o with
  | .next s => .next (agentsAct before s)
  | .fault e => .fault e
  | .refused r => .refused r

/-! ## The steps of the environment -/

/-- The pins of a port change (R72, R251); on port B a mismatch sets RBIF (R236). -/
def setPins (p : PortId) (v : Byte) (s : State) : State :=
  if p = .b then rbSense s.portbLast (setPort p { getPort p s with pins := some v } s)
  else setPort p { getPort p s with pins := some v } s

/-- One count of the Watchdog's own oscillator (R244): WDT counts up, and its wrap counts the prescaler while that
is assigned to the Watchdog (R243, log 19). Only where the Watchdog runs. -/
def watchdogClock (s : State) : State :=
  if s.cfg.wdtEnabled then
    { s with
      wdt := s.wdt + 1
      wdtps := if decide (s.wdt + 1 = 0) && psaToWdt s.optionReg then s.wdtps + 1 else s.wdtps }
  else s

/-- `Env(e)` (R251). The environment ticks Timer0 by the edges of its external clock; the internal clock is the
instruction cycle, which `agentsAct` counts (R242, log 20). -/
def applyEnv (e : EnvEvent) (s : State) : State :=
  match e with
  | .pins p v => setPins p v s
  | .intEdge rising => if rising = intedg s then raiseIntFlag .int s else s
  | .raiseFlag src => raiseIntFlag src s
  | .timer0Edge rising => if t0cs s && (rising != t0se s) then timer0Clock s else s
  | .watchdogClock => watchdogClock s
  | .idle n => if s.sleeping then { s with wdtAge := s.wdtAge + n } else s

end Sys2Proof.Machine
end

