-- ==== Sys2Proof/Machine/Reset.lean ====
section
/-! DEFINITION. Resets (spec/70_reset_and_hazards.md R260 to R263, spec/10_state.md R47), the Watchdog time-out
(spec/60_exceptions.md R244) and the wake-ups from SLEEP (R247). -/

namespace Sys2Proof.Machine

/-- What every reset does (R260, and the column "other resets" of R47): PC to `RESET_VECTOR`, awake, GIE and every
enable and flag of INTCON but RBIF cleared, the stack empty, the bank bits and PCLATH cleared, OPTION and the
TRIS registers all ones, WDT and WDTPS cleared. Everything else is unchanged. The value of TRIS[7], for which R47
has no row, and of the model's own counters and `afterWake`, are the model's choice (log 24, log 17, log 20). -/
def resetCommon (s : State) : State :=
  { s with
    pc := s.cfg.resetVector
    sleeping := false
    afterWake := false
    intcon := s.intcon &&& 0x01
    stack := []
    rp0 := false
    rp1 := false
    irp := false
    pclath := 0
    optionReg := 0xFF
    portA := { s.portA with tris := portMask s.cfg .a }
    portB := { s.portB with tris := portMask s.cfg .b }
    portC := { s.portC with tris := portMask s.cfg .c }
    tmr0Inhibit := 0
    timer0Due := 0
    wdt := 0
    wdtps := 0
    wdtAge := 0 }

/-- A power-on reset: besides, TO and PD are 1, and everything R47 calls unknown takes the value the model names,
that of `State.reset` (log 3, 5, 28). The configuration, the program, the pins and the model's own fields stay. -/
def powerOnReset (s : State) : State :=
  { resetCommon s with
    w := State.reset.w
    c := State.reset.c
    dc := State.reset.dc
    z := State.reset.z
    toBit := true
    pdBit := true
    fsr := State.reset.fsr
    intcon := State.reset.intcon
    eeif := State.reset.eeif
    portA := { latch := State.reset.portA.latch, tris := portMask s.cfg .a, pins := s.portA.pins }
    portB := { latch := State.reset.portB.latch, tris := portMask s.cfg .b, pins := s.portB.pins }
    portC := { latch := State.reset.portC.latch, tris := portMask s.cfg .c, pins := s.portC.pins }
    portbLast := State.reset.portbLast
    tmr0 := State.reset.tmr0
    gpr := State.reset.gpr }

/-- `Reset(cause)` (R260), with TO and PD as R262 gives them for each cause. -/
def applyReset (cause : ResetCause) (s : State) : State :=
  match cause with
  | .powerOn => powerOnReset s
  | .mclr => resetCommon s
  | .mclrSleep => { resetCommon s with toBit := true, pdBit := false }
  | .wdtReset => { resetCommon s with toBit := false, pdBit := true }

/-- The cause of a reset the environment asserts: MCLR is told apart by whether the part sleeps (R260). -/
def resetCauseOf (line : ResetLine) (s : State) : ResetCause :=
  match line with
  | .powerOn => .powerOn
  | .mclr => if s.sleeping then .mclrSleep else .mclr

/-- A Watchdog time-out can occur: the Watchdog runs and WDT was not cleared within `WDT_MIN_CYCLES`, and not
within the last cycle (R244; spec/92_eei_decisions.md, open parameters). -/
def wdtDue (s : State) : Bool := s.cfg.wdtEnabled && decide (max 1 s.cfg.wdtMinCycles ≤ s.wdtAge)

/-- A Watchdog time-out (R244): awake it is a reset, asleep a wake-up with TO cleared and PD kept. -/
def wdtTimeout (s : State) : State :=
  if s.sleeping then { s with sleeping := false, toBit := false } else applyReset .wdtReset s

/-- A wake-up by an interrupt request (R247): TO and PD are unchanged, and the word after SLEEP is executed
before an entry (log 17). -/
def intWake (s : State) : State := { s with sleeping := false, afterWake := true }

end Sys2Proof.Machine
end

