-- ==== Sys2Proof/Machine/Boundary.lean ====
section
/-! DEFINITION. The machine's step relation (spec/60_exceptions.md R251): fetch (spec/20_memory.md R60, R61), the
instruction step, and what happens at a boundary between instructions in the precedence of R239. -/

namespace Sys2Proof.Machine

/-- `Instr` (R251, R60): fetch at PC, decode, execute. It is the only step that can be refused; the bit that
holds an entry back after a wake-up is used up (R247, log 17). -/
def instrStep (s : State) : Result :=
  match progRead s.prog s.pc with
  | none => .fault (.fetchOutsideProgram s.pc)
  | some word =>
    match decode word with
    | .unassigned u => .refused (.unassignedOpcode s.pc u)
    | .instr i => exec i { s with afterWake := false }

/-- `IntEntry` is enabled (R237, R251): awake, GIE set and a request pending; not between a wake-up by an
interrupt and the word after SLEEP (R247). -/
def intEntryEnabled (s : State) : Bool := !s.sleeping && gie s && intReq s && !s.afterWake

/-- One boundary between instructions, in the order of R239: a reset, else a Watchdog time-out, else, asleep, a
wake-up by an interrupt or no step at all (R60, R247, log 16), else, awake, an interrupt entry, else the next
instruction. After an entry or an instruction the agents act (R242, R236). -/
def boundaryStep (b : Boundary) (s : State) : Result :=
  match b.reset with
  | some line => .next (applyReset (resetCauseOf line s) s)
  | none =>
    if b.wdtTimeout && wdtDue s then .next (wdtTimeout s)
    else if s.sleeping then
      if wakeReq s && !b.postpone then .next (intWake s) else .next s
    else if intEntryEnabled s && !b.postpone then thenAgents s (takeInterrupt s)
    else thenAgents s (instrStep s)

/-- A boundary at which the environment offers nothing and puts nothing off. -/
def quietBoundary : Boundary := { reset := none, wdtTimeout := false, postpone := false }

/-- A boundary at which the environment puts an interrupt entry off (R237). -/
def postponedBoundary : Boundary := { reset := none, wdtTimeout := false, postpone := true }

/-- One step of the machine (R251): the environment's next choice, or a quiet boundary where it makes none
(log 7). -/
def machineStep (s : State) : Result :=
  match s.inputs with
  | [] => boundaryStep quietBoundary s
  | .env e :: rest => .next (applyEnv e { s with inputs := rest })
  | .boundary b :: rest => boundaryStep b { s with inputs := rest }

/-- The state with word `w` loaded where the next step fetches, and nothing in the way of that fetch: awake, no
choice of the environment before it, and an enabled interrupt entry put off past this boundary (log 6). -/
def loadNextWord (w : InstrWord) (s : State) : State :=
  { s with
    prog := progStore s.prog s.pc w
    sleeping := false
    inputs :=
      if s.inputs.isEmpty && !intEntryEnabled { s with sleeping := false } then []
      else .boundary postponedBoundary :: s.inputs }

end Sys2Proof.Machine
end

