-- ==== Sys2Proof/Machine/Step.lean ====
section
/-! DEFINITION. One step of the machine, and the placing of a word where it fetches next. Both only call
Machine/Boundary.lean. -/

namespace Sys2Proof.Machine

/-- One step of the machine (spec/60_exceptions.md R251). -/
def step (s : State) : Host.Outcome State Fault Refusal := machineStep s

/-- The state with the 14-bit word `w` (a table row's bits, numbered as spec/opcode_table.json numbers them)
stored where `step` fetches its next instruction. An instruction is one word (R100). -/
def State.withFetchWord (s : State) (_nbits w : Nat) : State := loadNextWord (BitVec.ofNat 14 w) s

end Sys2Proof.Machine
end

