-- ==== Sys2Proof/Machine/Assembler.lean ====
section
/-! DEFINITION. The assembler statements of spec/30_encoding.md R113 to R116: mnemonic, operands and their ranges,
the default of `d`, labels, and the text of an instruction. It stands beside the machine: no step reads it. -/

namespace Sys2Proof.Machine

/-- An operand of a statement: a number, or a symbol such as a label or a register name (R113). -/
inductive Operand where
  | num (n : Nat)
  | sym (name : String)
  deriving DecidableEq, Repr

/-- A statement `[label] MNEMONIC [operands]` (R113). -/
structure Statement where
  label : Option String
  mnemonic : String
  operands : List Operand
  deriving DecidableEq, Repr

/-- Why a statement is refused. -/
inductive AsmError where
  /-- A mnemonic outside the 37, the assembler's own expansions included (R116). -/
  | unknownMnemonic (name : String)
  /-- The number of operands is not the mnemonic's (R113). -/
  | operandCount
  /-- A value outside its range (R114). -/
  | operandRange (n : Nat)
  /-- A symbol no table gives a value. -/
  | unknownSymbol (name : String)
  deriving DecidableEq, Repr

/-- A number in a field of `w` bits, refused when it is out of range (R114). -/
def fieldValue (w n : Nat) : Except AsmError (BitVec w) :=
  if n < 2 ^ w then .ok (BitVec.ofNat w n) else .error (.operandRange n)

/-- The operand `d`, 0 or 1 (R114). -/
def destValue (n : Nat) : Except AsmError Dest :=
  match n with
  | 0 => .ok .w
  | 1 => .ok .f
  | _ => .error (.operandRange n)

/-- Operands `f,d`; where `d` is omitted it is 1 (R114). -/
def asmFileDest (mk : FileAddr → Dest → Instr) (ops : List Nat) : Except AsmError Instr :=
  match ops with
  | [f] => (fieldValue 7 f).map fun f => mk f .f
  | [f, d] => do
    let f ← fieldValue 7 f
    let d ← destValue d
    return mk f d
  | _ => .error .operandCount

/-- Operand `f` alone. -/
def asmFile (mk : FileAddr → Instr) (ops : List Nat) : Except AsmError Instr :=
  match ops with
  | [f] => (fieldValue 7 f).map mk
  | _ => .error .operandCount

/-- Operands `f,b`. -/
def asmFileBit (mk : FileAddr → BitNum → Instr) (ops : List Nat) : Except AsmError Instr :=
  match ops with
  | [f, b] => do
    let f ← fieldValue 7 f
    let b ← fieldValue 3 b
    return mk f b
  | _ => .error .operandCount

/-- An 8-bit literal. -/
def asmLiteral (mk : Byte → Instr) (ops : List Nat) : Except AsmError Instr :=
  match ops with
  | [k] => (fieldValue 8 k).map mk
  | _ => .error .operandCount

/-- An 11-bit program address. -/
def asmTarget (mk : BitVec 11 → Instr) (ops : List Nat) : Except AsmError Instr :=
  match ops with
  | [k] => (fieldValue 11 k).map mk
  | _ => .error .operandCount

/-- No operand. -/
def asmPlain (i : Instr) (ops : List Nat) : Except AsmError Instr :=
  match ops with
  | [] => .ok i
  | _ => .error .operandCount

/-- The TRIS number, 5 to 7 (R114). -/
def asmTris (ops : List Nat) : Except AsmError Instr :=
  match ops with
  | [n] => if 5 ≤ n ∧ n ≤ 7 then .ok (.tris (BitVec.ofNat 3 n)) else .error (.operandRange n)
  | _ => .error .operandCount

/-- The instruction a mnemonic and its operand values stand for (R113, R114, R116). -/
def assembleValues (mnemonic : String) (ops : List Nat) : Except AsmError Instr :=
  match mnemonic with
  | "ADDWF" => asmFileDest .addwf ops
  | "ANDWF" => asmFileDest .andwf ops
  | "CLRF" => asmFile .clrf ops
  | "CLRW" => asmPlain .clrw ops
  | "COMF" => asmFileDest .comf ops
  | "DECF" => asmFileDest .decf ops
  | "DECFSZ" => asmFileDest .decfsz ops
  | "INCF" => asmFileDest .incf ops
  | "INCFSZ" => asmFileDest .incfsz ops
  | "IORWF" => asmFileDest .iorwf ops
  | "MOVF" => asmFileDest .movf ops
  | "MOVWF" => asmFile .movwf ops
  | "NOP" => asmPlain .nop ops
  | "RLF" => asmFileDest .rlf ops
  | "RRF" => asmFileDest .rrf ops
  | "SUBWF" => asmFileDest .subwf ops
  | "SWAPF" => asmFileDest .swapf ops
  | "XORWF" => asmFileDest .xorwf ops
  | "BCF" => asmFileBit .bcf ops
  | "BSF" => asmFileBit .bsf ops
  | "BTFSC" => asmFileBit .btfsc ops
  | "BTFSS" => asmFileBit .btfss ops
  | "ADDLW" => asmLiteral .addlw ops
  | "ANDLW" => asmLiteral .andlw ops
  | "CALL" => asmTarget .call ops
  | "CLRWDT" => asmPlain .clrwdt ops
  | "GOTO" => asmTarget .goto ops
  | "IORLW" => asmLiteral .iorlw ops
  | "MOVLW" => asmLiteral .movlw ops
  | "RETFIE" => asmPlain .retfie ops
  | "RETLW" => asmLiteral .retlw ops
  | "RETURN" => asmPlain .ret ops
  | "SLEEP" => asmPlain .sleep ops
  | "SUBLW" => asmLiteral .sublw ops
  | "XORLW" => asmLiteral .xorlw ops
  | "OPTION" => asmPlain .option ops
  | "TRIS" => asmTris ops
  | _ => .error (.unknownMnemonic mnemonic)

/-- The value of a symbol. -/
def symbolValue (table : List (String × Nat)) (name : String) : Except AsmError Nat :=
  match table with
  | [] => .error (.unknownSymbol name)
  | (n, v) :: rest => if n = name then .ok v else symbolValue rest name

/-- The values of a statement's operands. -/
def operandValues (table : List (String × Nat)) (ops : List Operand) : Except AsmError (List Nat) :=
  match ops with
  | [] => .ok []
  | .num n :: rest => (operandValues table rest).map (n :: ·)
  | .sym name :: rest => do
    let n ← symbolValue table name
    let ns ← operandValues table rest
    return n :: ns

/-- The instruction of a statement, given the values of its symbols. -/
def assemble (table : List (String × Nat)) (st : Statement) : Except AsmError Instr := do
  assembleValues st.mnemonic (← operandValues table st.operands)

/-- The addresses the labels of consecutive statements name, from address `a` on: one word each (R100, R113). -/
def labelsFrom (a : Nat) (sts : List Statement) : List (String × Nat) :=
  match sts with
  | [] => []
  | st :: rest =>
    match st.label with
    | some name => (name, a) :: labelsFrom (a + 1) rest
    | none => labelsFrom (a + 1) rest

/-- The program of consecutive statements from address `a` on. -/
def assembleFrom (table : List (String × Nat)) (a : Nat) (sts : List Statement) : Except AsmError Program :=
  match sts with
  | [] => .ok []
  | st :: rest => do
    let i ← assemble table st
    let p ← assembleFrom table (a + 1) rest
    return (a, encode i) :: p

/-- Two hexadecimal digits or more, written `0xhh` with capital digits, as the examples do (R115). -/
def hexText (n : Nat) : String :=
  "0x" ++ (if n < 16 then "0" else "") ++ String.ofList ((Nat.toDigits 16 n).map Char.toUpper)

/-- The number written for `d` (R101). -/
def destNumber (d : Dest) : Nat :=
  match d with
  | .w => 0
  | .f => 1

/-- The mnemonic of an instruction (R110, R113). -/
def mnemonicOf (i : Instr) : String :=
  match i with
  | .addwf _ _ => "ADDWF"
  | .andwf _ _ => "ANDWF"
  | .clrf _ => "CLRF"
  | .clrw => "CLRW"
  | .comf _ _ => "COMF"
  | .decf _ _ => "DECF"
  | .decfsz _ _ => "DECFSZ"
  | .incf _ _ => "INCF"
  | .incfsz _ _ => "INCFSZ"
  | .iorwf _ _ => "IORWF"
  | .movf _ _ => "MOVF"
  | .movwf _ => "MOVWF"
  | .nop => "NOP"
  | .rlf _ _ => "RLF"
  | .rrf _ _ => "RRF"
  | .subwf _ _ => "SUBWF"
  | .swapf _ _ => "SWAPF"
  | .xorwf _ _ => "XORWF"
  | .bcf _ _ => "BCF"
  | .bsf _ _ => "BSF"
  | .btfsc _ _ => "BTFSC"
  | .btfss _ _ => "BTFSS"
  | .addlw _ => "ADDLW"
  | .andlw _ => "ANDLW"
  | .call _ => "CALL"
  | .clrwdt => "CLRWDT"
  | .goto _ => "GOTO"
  | .iorlw _ => "IORLW"
  | .movlw _ => "MOVLW"
  | .retfie => "RETFIE"
  | .retlw _ => "RETLW"
  | .ret => "RETURN"
  | .sleep => "SLEEP"
  | .sublw _ => "SUBLW"
  | .xorlw _ => "XORLW"
  | .option => "OPTION"
  | .tris _ => "TRIS"

/-- The operand values of an instruction, in the order of its syntax line (R113). -/
def operandsOf (i : Instr) : List Nat :=
  match i with
  | .addwf f d => [f.toNat, destNumber d]
  | .andwf f d => [f.toNat, destNumber d]
  | .clrf f => [f.toNat]
  | .clrw => []
  | .comf f d => [f.toNat, destNumber d]
  | .decf f d => [f.toNat, destNumber d]
  | .decfsz f d => [f.toNat, destNumber d]
  | .incf f d => [f.toNat, destNumber d]
  | .incfsz f d => [f.toNat, destNumber d]
  | .iorwf f d => [f.toNat, destNumber d]
  | .movf f d => [f.toNat, destNumber d]
  | .movwf f => [f.toNat]
  | .nop => []
  | .rlf f d => [f.toNat, destNumber d]
  | .rrf f d => [f.toNat, destNumber d]
  | .subwf f d => [f.toNat, destNumber d]
  | .swapf f d => [f.toNat, destNumber d]
  | .xorwf f d => [f.toNat, destNumber d]
  | .bcf f b => [f.toNat, b.toNat]
  | .bsf f b => [f.toNat, b.toNat]
  | .btfsc f b => [f.toNat, b.toNat]
  | .btfss f b => [f.toNat, b.toNat]
  | .addlw k => [k.toNat]
  | .andlw k => [k.toNat]
  | .call k => [k.toNat]
  | .clrwdt => []
  | .goto k => [k.toNat]
  | .iorlw k => [k.toNat]
  | .movlw k => [k.toNat]
  | .retfie => []
  | .retlw k => [k.toNat]
  | .ret => []
  | .sleep => []
  | .sublw k => [k.toNat]
  | .xorlw k => [k.toNat]
  | .option => []
  | .tris n => [n.toNat]

/-- The operand text of an instruction: addresses and literals as `0xhh`, d, b and the TRIS number as digits
(R113, R115). -/
def operandText (i : Instr) : String :=
  match i with
  | .addwf f d => " " ++ hexText f.toNat ++ "," ++ toString (destNumber d)
  | .andwf f d => " " ++ hexText f.toNat ++ "," ++ toString (destNumber d)
  | .clrf f => " " ++ hexText f.toNat
  | .clrw => ""
  | .comf f d => " " ++ hexText f.toNat ++ "," ++ toString (destNumber d)
  | .decf f d => " " ++ hexText f.toNat ++ "," ++ toString (destNumber d)
  | .decfsz f d => " " ++ hexText f.toNat ++ "," ++ toString (destNumber d)
  | .incf f d => " " ++ hexText f.toNat ++ "," ++ toString (destNumber d)
  | .incfsz f d => " " ++ hexText f.toNat ++ "," ++ toString (destNumber d)
  | .iorwf f d => " " ++ hexText f.toNat ++ "," ++ toString (destNumber d)
  | .movf f d => " " ++ hexText f.toNat ++ "," ++ toString (destNumber d)
  | .movwf f => " " ++ hexText f.toNat
  | .nop => ""
  | .rlf f d => " " ++ hexText f.toNat ++ "," ++ toString (destNumber d)
  | .rrf f d => " " ++ hexText f.toNat ++ "," ++ toString (destNumber d)
  | .subwf f d => " " ++ hexText f.toNat ++ "," ++ toString (destNumber d)
  | .swapf f d => " " ++ hexText f.toNat ++ "," ++ toString (destNumber d)
  | .xorwf f d => " " ++ hexText f.toNat ++ "," ++ toString (destNumber d)
  | .bcf f b => " " ++ hexText f.toNat ++ "," ++ toString b.toNat
  | .bsf f b => " " ++ hexText f.toNat ++ "," ++ toString b.toNat
  | .btfsc f b => " " ++ hexText f.toNat ++ "," ++ toString b.toNat
  | .btfss f b => " " ++ hexText f.toNat ++ "," ++ toString b.toNat
  | .addlw k => " " ++ hexText k.toNat
  | .andlw k => " " ++ hexText k.toNat
  | .call k => " " ++ hexText k.toNat
  | .clrwdt => ""
  | .goto k => " " ++ hexText k.toNat
  | .iorlw k => " " ++ hexText k.toNat
  | .movlw k => " " ++ hexText k.toNat
  | .retfie => ""
  | .retlw k => " " ++ hexText k.toNat
  | .ret => ""
  | .sleep => ""
  | .sublw k => " " ++ hexText k.toNat
  | .xorlw k => " " ++ hexText k.toNat
  | .option => ""
  | .tris n => " " ++ toString n.toNat

/-- The assembler text of an instruction (R113). -/
def disassemble (i : Instr) : String := mnemonicOf i ++ operandText i

end Sys2Proof.Machine
end

