-- ==== Sys2Proof/Safety.lean ====
section
/-! DEFINITION. What counts as a sound state and a safe run: the invariant every step keeps, the candidates for
the end of a run (spec/92_eei_decisions.md D22), and runs without a fault or a refusal. -/

namespace Sys2Proof

open Machine

/-- A port's registers hold only bits the part implements (spec/20_memory.md R71, U29). -/
abbrev PortSound (c : Config) (p : PortId) (q : Port) : Prop :=
  q.latch &&& ~~~(portMask c p) = 0 ∧ q.tris &&& ~~~(portMask c p) = 0

/-- The invariant of the machine: both stores in canonical form, the stack within `STACK_DEPTH` (R31), the port
registers within their implemented bits (R71), no entry held back while the core sleeps (R247), and every
instruction cycle executed taken by Timer0's agent (R242). -/
abbrev MachineInv (s : State) : Prop :=
  Memory.wf s.gpr = true ∧ Program.wf s.prog = true ∧ s.stack.length ≤ s.cfg.stackDepth ∧
  PortSound s.cfg .a s.portA ∧ PortSound s.cfg .b s.portB ∧ PortSound s.cfg .c s.portC ∧
  (s.afterWake = true → s.sleeping = false) ∧ s.timer0Due = 0

/-- Every word of the program lies in the implemented program memory, `PROG_WORDS` (R61, informative). -/
def programFits (s : State) : Bool := s.prog.all fun e => decide (e.1 < s.cfg.progWords)

/-- The address a state's file operand selects is one the machine accesses (R67). -/
abbrev Readable (f : FileAddr) (s : State) : Prop := accessRefusal s.cfg (dataAddr f s) = none

/-- `k` steps without a fault or a refusal. -/
def RunsFor (k : Nat) (s : State) : Prop := ∃ t, core.run k s = .next t

/-- End of run by sleep: asleep, the environment silent and no waking request (D22, U18). -/
def endAsleep (s : State) : Bool := s.sleeping && s.inputs.isEmpty && !wakeReq s

/-- End of run by a GOTO to its own address (D22). -/
def endSelfGoto (s : State) : Bool :=
  match progRead s.prog s.pc with
  | none => false
  | some word =>
    match decode word with
    | .instr (.goto k) => decide (jumpTarget k s = s.pc)
    | _ => false

/-- The next step is a model-level fault or refusal (R231, D22). -/
def nextStops (s : State) : Bool :=
  match step s with
  | .next _ => false
  | .fault _ => true
  | .refused _ => true

/-- Whether a condition that ends a run holds at `s` after `k` steps (D22). -/
def endHolds (e : EndOfRun) (k : Nat) (s : State) : Bool :=
  match e with
  | .asleep => endAsleep s
  | .selfGoto => endSelfGoto s
  | .steps n => decide (n ≤ k)
  | .stop => nextStops s

/-- `END_OF_RUN`: the configuration's conditions say that a run at `s` after `k` steps is over (R7, D22). With none,
the spec's OPEN default, a run is an infinite stream of steps. -/
def runEnded (k : Nat) (s : State) : Bool := s.cfg.endOfRun.any fun e => endHolds e k s

/-- The run from `s`, `k` steps old, until it is over by `END_OF_RUN`, for at most `fuel` more steps. -/
def runToEnd (fuel k : Nat) (s : State) : Result :=
  match fuel with
  | 0 => .next s
  | fuel + 1 =>
    if runEnded k s then .next s
    else
      match step s with
      | .next t => runToEnd fuel (k + 1) t
      | .fault e => .fault e
      | .refused r => .refused r

end Sys2Proof
end

