-- ==== Sys2Proof/Certificates/Slice0/Obligations.lean ====
section
/-! DEFINITION. The statements for the provers. The helpers of `Sys2Proof.Claims` write the spec's own formulas;
each statement's docstring names the rules it formalises. `t = (a state written out from s)` is a frame: every
field not named is unchanged. -/

namespace Sys2Proof.Claims

open Machine

/-! ## Vocabulary -/

/-- One cycle passes and PC goes to the next address (R12, R24, R266): the frame of a one-cycle instruction. -/
def oneCycle (s : State) : State :=
  { s with
    pc := s.pc + 1, cycles := s.cycles + 1, wdtAge := s.wdtAge + 1, timer0Due := s.timer0Due + 1 }

/-- Two cycles pass and PC goes to `target` (R266): the frame of a jump or a taken skip. -/
def twoCycles (target : ProgAddr) (s : State) : State :=
  { s with
    pc := target, cycles := s.cycles + 2, wdtAge := s.wdtAge + 2, timer0Due := s.timer0Due + 2 }

/-- What is behind the file operand (R65 to R67). -/
def fileKind (f : FileAddr) (s : State) : RegKind := regKind s.cfg (dataAddr f s)

/-- The value FileRead gives (R63). -/
def fileValue (f : FileAddr) (s : State) : Byte := memRead (dataAddr f s) s

/-- The state after FileRead: only a port read changes it (R63, R77). -/
def afterRead (f : FileAddr) (s : State) : State := readEffect (dataAddr f s) s

/-- Values for C, DC and Z. -/
structure FlagValues where
  c : Bool
  dc : Bool
  z : Bool

/-- A state with new values of C, DC, Z. -/
def withFlags (u : FlagValues) (s : State) : State := { s with c := u.c, dc := u.dc, z := u.z }

/-- No flag affected. -/
def keptFlags (s : State) : FlagValues := ⟨s.c, s.dc, s.z⟩

/-- Z alone is affected (R29). -/
def zeroFlag (s : State) (r : Byte) : FlagValues := ⟨s.c, s.dc, decide (r = 0)⟩

/-- The flags of `a + b`: C is bit 8 of the 9-bit sum, DC the carry out of the low nibbles (R27, R28, R140). -/
def sumFlags (a b : Byte) : FlagValues :=
  ⟨(a.setWidth 9 + b.setWidth 9).getLsbD 8,
   decide (16 ≤ (a.extractLsb' 0 4).toNat + (b.extractLsb' 0 4).toNat), decide (a + b = 0)⟩

/-- The flags of `a - b`: C and DC are set when there is no borrow (R27, R28, R155). -/
def differenceFlags (a b : Byte) : FlagValues :=
  ⟨decide (b.toNat ≤ a.toNat), decide ((b.extractLsb' 0 4).toNat ≤ (a.extractLsb' 0 4).toNat), decide (a = b)⟩

/-- With `d = 0`, W takes `r s v` and the flags `u s v`, where `v` is the value read; the file register is not
written (R74). It holds for every register the machine reads, and says that the instruction completes. -/
def ResultInW (i : FileAddr → Dest → Instr) (r : State → Byte → Byte) (u : State → Byte → FlagValues) : Prop :=
  ∀ f s, Readable f s →
    exec (i f .w) s =
      .next (withFlags (u s (fileValue f s)) { oneCycle (afterRead f s) with w := r s (fileValue f s) })

/-- With a general purpose register as destination, it takes `r s v`, every other one reads as before, the flags
are `u s v`, and nothing else changes; the instruction completes. -/
def ResultInGpr (i : FileAddr → Instr) (r : State → Byte → Byte) (u : State → Byte → FlagValues) : Prop :=
  ∀ f s n, fileKind f s = .gpr n →
    ∃ t, exec (i f) s = .next t ∧
      gprRead t.gpr n = r s (gprRead s.gpr n) ∧
      (∀ m, m ≠ n → gprRead t.gpr m = gprRead s.gpr m) ∧
      t = withFlags (u s (gprRead s.gpr n)) { oneCycle s with gpr := t.gpr }

/-- `ResultInW` for d = 0 and `ResultInGpr` for d = 1. -/
def ResultByDest (i : FileAddr → Dest → Instr) (r : State → Byte → Byte) (u : State → Byte → FlagValues) : Prop :=
  ResultInW i r u ∧ ResultInGpr (fun f => i f .f) r u

/-! ## The instructions that write a file register -/

/-- The file operand of an instruction that reads one (R63). -/
def fileOperand (i : Instr) : Option FileAddr :=
  match i with
  | .addwf f _ => some f
  | .andwf f _ => some f
  | .clrf f => some f
  | .comf f _ => some f
  | .decf f _ => some f
  | .decfsz f _ => some f
  | .incf f _ => some f
  | .incfsz f _ => some f
  | .iorwf f _ => some f
  | .movf f _ => some f
  | .movwf f => some f
  | .rlf f _ => some f
  | .rrf f _ => some f
  | .subwf f _ => some f
  | .swapf f _ => some f
  | .xorwf f _ => some f
  | .bcf f _ => some f
  | .bsf f _ => some f
  | .btfsc f _ => some f
  | .btfss f _ => some f
  | _ => none

/-- What an instruction with a file destination writes: the operand, the value from the value read, the flags, and
whether it affects any of C, DC, Z (R140 to R157, R180, R181, R48). -/
def fileWrite (i : Instr) (s : State) (v : Byte) : Option (FileAddr × Byte × FlagValues × Bool) :=
  match i with
  | .addwf f .f => some (f, s.w + v, sumFlags s.w v, true)
  | .andwf f .f => some (f, s.w &&& v, zeroFlag s (s.w &&& v), true)
  | .clrf f => some (f, 0, zeroFlag s 0, true)
  | .comf f .f => some (f, ~~~v, zeroFlag s (~~~v), true)
  | .decf f .f => some (f, v - 1, zeroFlag s (v - 1), true)
  | .decfsz f .f => some (f, v - 1, keptFlags s, false)
  | .incf f .f => some (f, v + 1, zeroFlag s (v + 1), true)
  | .incfsz f .f => some (f, v + 1, keptFlags s, false)
  | .iorwf f .f => some (f, s.w ||| v, zeroFlag s (s.w ||| v), true)
  | .movf f .f => some (f, v, zeroFlag s v, true)
  | .movwf f => some (f, s.w, keptFlags s, false)
  | .rlf f .f => some (f, v <<< 1 ||| (BitVec.ofBool s.c).setWidth 8, ⟨v.getLsbD 7, s.dc, s.z⟩, true)
  | .rrf f .f => some (f, v >>> 1 ||| (BitVec.ofBool s.c).setWidth 8 <<< 7, ⟨v.getLsbD 0, s.dc, s.z⟩, true)
  | .subwf f .f => some (f, v - s.w, differenceFlags v s.w, true)
  | .swapf f .f => some (f, v.rotateLeft 4, keptFlags s, false)
  | .xorwf f .f => some (f, s.w ^^^ v, zeroFlag s (s.w ^^^ v), true)
  | .bcf f b => some (f, v &&& ~~~(1#8 <<< b.toNat), keptFlags s, false)
  | .bsf f b => some (f, v ||| 1#8 <<< b.toNat, keptFlags s, false)
  | _ => none

/-- DECFSZ and INCFSZ skip when the result is 0 (R146, R148). -/
def skipsOnZero (i : Instr) (r : Byte) : Bool :=
  match i with
  | .decfsz _ _ => decide (r = 0)
  | .incfsz _ _ => decide (r = 0)
  | _ => false

/-- The frame of an instruction with a file destination other than PCL: one cycle, or the taken skip. -/
def passed (i : Instr) (r : Byte) (s : State) : State :=
  if skipsOnZero i r then twoCycles (s.pc + 2) s else oneCycle s

/-! ## Flags and other whole-machine vocabulary -/

/-- The five status flags (R26). -/
inductive StatusFlag where
  | c
  | dc
  | z
  | to
  | pd
  deriving DecidableEq, Repr

/-- A flag's value. -/
def flagValue (g : StatusFlag) (s : State) : Bool :=
  match g with
  | .c => s.c
  | .dc => s.dc
  | .z => s.z
  | .to => s.toBit
  | .pd => s.pdBit

/-- "Status Affected", the table of R48. -/
def statusAffected (i : Instr) : List StatusFlag :=
  match i with
  | .addwf _ _ => [.c, .dc, .z]
  | .subwf _ _ => [.c, .dc, .z]
  | .addlw _ => [.c, .dc, .z]
  | .sublw _ => [.c, .dc, .z]
  | .andwf _ _ => [.z]
  | .clrf _ => [.z]
  | .clrw => [.z]
  | .comf _ _ => [.z]
  | .decf _ _ => [.z]
  | .incf _ _ => [.z]
  | .iorwf _ _ => [.z]
  | .movf _ _ => [.z]
  | .xorwf _ _ => [.z]
  | .andlw _ => [.z]
  | .iorlw _ => [.z]
  | .xorlw _ => [.z]
  | .rlf _ _ => [.c]
  | .rrf _ _ => [.c]
  | .clrwdt => [.to, .pd]
  | .sleep => [.to, .pd]
  | _ => []

/-- The instruction writes a file register, and it is of kind `k` (R64, R67). -/
def WritesKind (i : Instr) (s : State) (k : RegKind) : Prop :=
  ∃ f r u a, fileWrite i s 0 = some (f, r, u, a) ∧ fileKind f s = k

/-- The instruction writes W (R20). -/
def writesW (i : Instr) : Bool :=
  match i with
  | .addwf _ .w => true
  | .andwf _ .w => true
  | .comf _ .w => true
  | .decf _ .w => true
  | .decfsz _ .w => true
  | .incf _ .w => true
  | .incfsz _ .w => true
  | .iorwf _ .w => true
  | .movf _ .w => true
  | .rlf _ .w => true
  | .rrf _ .w => true
  | .subwf _ .w => true
  | .swapf _ .w => true
  | .xorwf _ .w => true
  | .clrw => true
  | .addlw _ => true
  | .andlw _ => true
  | .iorlw _ => true
  | .movlw _ => true
  | .retlw _ => true
  | .sublw _ => true
  | .xorlw _ => true
  | _ => false

/-- The instruction's rule assigns PC (R24): a jump, a return, a skip whose condition holds, or a write to PCL. -/
def AssignsPc (i : Instr) (s : State) : Prop :=
  match i with
  | .call _ => True
  | .goto _ => True
  | .ret => True
  | .retlw _ => True
  | .retfie => True
  | .decfsz f _ => fileValue f s = 1
  | .incfsz f _ => fileValue f s = 0xFF
  | .btfsc f b => (fileValue f s).getLsbD b.toNat = false
  | .btfss f b => (fileValue f s).getLsbD b.toNat = true
  | _ => WritesKind i s .pcl

/-- The instruction uses the stack (R31). -/
def usesStack (i : Instr) : Bool :=
  match i with
  | .call _ => true
  | .ret => true
  | .retlw _ => true
  | .retfie => true
  | _ => false

/-- The same outcome with another program in the next state. -/
def withProgram (p : Program) (o : Result) : Result :=
  match o with
  | .next t => .next { t with prog := p }
  | .fault e => .fault e
  | .refused r => .refused r

/-- The core is awake, the environment silent, and no interrupt entry enabled: the next step is an instruction
(R251). -/
def AtInstruction (s : State) : Prop := s.inputs = [] ∧ s.sleeping = false ∧ intEntryEnabled s = false

/-- TMR0 adds 1 modulo 256, and T0IF is set when it wraps (R242). -/
def ticked (s : State) : State :=
  { s with
    tmr0 := BitVec.ofNat 8 (s.tmr0.toNat + 1)
    intcon := if s.tmr0 = 0xFF then s.intcon ||| 0x04 else s.intcon }

/-- One clock of Timer0 (R242, R243): with the prescaler assigned to the Watchdog it counts TMR0; else it counts the
prescaler, and TMR0 at every `2^(PS+1)`-th clock; TMR0 does not count while it is inhibited. -/
def clocked (s : State) : State :=
  if s.optionReg.getLsbD 3 then (if s.tmr0Inhibit = 0 then ticked s else s)
  else if (s.wdtps.toNat + 1) % 2 ^ ((s.optionReg.extractLsb' 0 3).toNat + 1) = 0 ∧ s.tmr0Inhibit = 0 then
    ticked { s with wdtps := s.wdtps + 1 }
  else { s with wdtps := s.wdtps + 1 }

/-- The condition of the RB source (R236): one of RB7:RB4 is an input, and the value known to be on the pin differs
from the one latched at the last read, or that read found one that differs from `last`, latched before it. -/
def RbDiffers (last : Byte) (s : State) : Prop :=
  ∃ j, 4 ≤ j ∧ j < 8 ∧ s.portB.tris.getLsbD j = true ∧
    ((∃ v, s.portB.pins = some v ∧ v.getLsbD j ≠ s.portbLast.getLsbD j) ∨
      s.portbLast.getLsbD j ≠ last.getLsbD j)

/-- A boundary record: the environment's offers at the next boundary are `b`. -/
def offered (b : Boundary) (s : State) : State := { s with inputs := .boundary b :: s.inputs }

end Sys2Proof.Claims

open Sys2Proof Sys2Proof.Machine Sys2Proof.Claims

/-! ## Decoding and encoding -/

/-- R108, R110: decoding the canonical word of any well-formed instruction, every operand at every value, gives
the instruction back. -/
def Obligations.DecodeOfEncodeIsTheInstruction : Prop :=
  ∀ i : Instr, i.wellFormed = true → decode (encode i) = .instr i

/-- R107, R108: a word decodes to `i` exactly when `i` is well formed and the word is its canonical word but for the
don't-care bits. No bit of an encoding is dropped, and the don't-care bits carry no meaning. -/
def Obligations.DecodesExactlyWhenCanonicalUpToDontCareBits : Prop :=
  ∀ (w : InstrWord) (i : Instr),
    decode w = .instr i ↔ i.wellFormed = true ∧ w &&& ~~~(dontCareBits i) = encode i

/-- R111: the unassigned words are exactly those of its table. -/
def Obligations.UnassignedWordsAreThoseOfTheTable : Prop :=
  ∀ w : InstrWord, decode w = .unassigned w ↔
    (1 ≤ w.toNat ∧ w.toNat ≤ 0x0007) ∨ (0x000A ≤ w.toNat ∧ w.toNat ≤ 0x001F) ∨
    (0x0021 ≤ w.toNat ∧ w.toNat ≤ 0x003F) ∨ (0x0041 ≤ w.toNat ∧ w.toNat ≤ 0x005F) ∨ w.toNat = 0x0061 ∨
    (0x0068 ≤ w.toNat ∧ w.toNat ≤ 0x007F) ∨ (0x3B00 ≤ w.toNat ∧ w.toNat ≤ 0x3BFF)

/-- Words of every format, written out from the encoding lines of R110, decode to their instructions. -/
def Obligations.WrittenOutWordsDecode : Prop :=
  decode 0b00011110100000 = .instr (.addwf 0x20 .f) ∧
  decode 0b00000110100000 = .instr (.clrf 0x20) ∧
  decode 0b00000101111111 = .instr .clrw ∧
  decode 0b00000001100000 = .instr .nop ∧
  decode 0b01001110100000 = .instr (.bcf 0x20 7) ∧
  decode 0b11111100010101 = .instr (.addlw 0x15) ∧
  decode 0b10000100100011 = .instr (.call 0x123) ∧
  decode 0b10111111111111 = .instr (.goto 0x7FF) ∧
  decode 0b00000000001001 = .instr .retfie ∧
  decode 0b00000001100110 = .instr (.tris 6)

/-- R113, R114: the mnemonic and the operand values of a well-formed instruction assemble to it. -/
def Obligations.AssemblyOfListedOperandsIsTheInstruction : Prop :=
  ∀ i : Instr, i.wellFormed = true → assembleValues (mnemonicOf i) (operandsOf i) = .ok i

/-! ## The step -/

/-- R60, R251: when the word at PC decodes to `i`, the next step of an awake core with a silent environment and no
entry enabled is `exec i`; so it is when the environment puts an enabled entry off (R237). The step adds only that
the bit holding an entry back after a wake-up is used up, and that, where `exec i` answers a next state, the agents
then act on it: they change TMR0, the prescaler, Timer0's own counters and interrupt flags alone, and clear no flag
(R235, R242). The bit, the silent environment and the agents' moment are the model's (log 7, log 17, log 20, log
31). -/
def Obligations.StepRunsTheDecodedInstruction : Prop :=
  ∀ (s : State) (word : InstrWord) (i : Instr),
    s.sleeping = false → progRead s.prog s.pc = some word → decode word = .instr i →
    (s.inputs = [] → intEntryEnabled s = false →
      step s = thenAgents s (exec i { s with afterWake := false })) ∧
    step (offered postponedBoundary s) = thenAgents s (exec i { s with afterWake := false }) ∧
    (∀ e, thenAgents s (.fault e) = .fault e) ∧ (∀ r, thenAgents s (.refused r) = .refused r) ∧
    ∀ t, ∃ u, thenAgents s (.next t) = .next u ∧
      u = { t with
        tmr0 := u.tmr0, wdtps := u.wdtps, tmr0Inhibit := u.tmr0Inhibit, timer0Due := 0
        intcon := u.intcon, eeif := u.eeif } ∧
      t.intcon &&& ~~~u.intcon = 0 ∧ (t.eeif = true → u.eeif = true)

/-- R61, R111: a fetch outside the program faults with its address, an unassigned word is refused with its address
and itself, and neither happens where the word decodes to an instruction. Both stops are the spec's decisions D10,
D11 (log 6, log 26). -/
def Obligations.FetchStopsOutsideTheProgramAndOnUnassignedWords : Prop :=
  ∀ s : State, AtInstruction s →
    (progRead s.prog s.pc = none → step s = .fault (.fetchOutsideProgram s.pc)) ∧
    (∀ w, progRead s.prog s.pc = some w → decode w = .unassigned w →
      step s = .refused (.unassignedOpcode s.pc w)) ∧
    (∀ w i, progRead s.prog s.pc = some w → decode w = .instr i →
      (∀ a, step s ≠ .fault (.fetchOutsideProgram a)) ∧ ∀ a u, step s ≠ .refused (.unassignedOpcode a u))

/-- R184, R81, R45: a step reads the program at PC and nowhere else: replacing every other word, the skipped one
among them, changes nothing but the program itself. That a skipped word raises nothing is the spec's decision D24.
-/
def Obligations.StepReadsTheProgramAtPcOnly : Prop :=
  ∀ (s : State) (p : Program), progRead p s.pc = progRead s.prog s.pc →
    step { s with prog := p } = withProgram p (step s)

/-! ## Byte-oriented instructions -/

/-- R140: ADDWF. C on additions and DC are the spec's own reading of their names (D7, log 14). -/
def Obligations.AddwfResultAndFlags : Prop :=
  ResultByDest .addwf (fun s v => s.w + v) (fun s v => sumFlags s.w v)

/-- R155: SUBWF computes f minus W; C and DC are the absence of a borrow. DC is the spec's own reading of the name
(D7, log 14). -/
def Obligations.SubwfResultAndFlags : Prop :=
  ResultByDest .subwf (fun s v => v - s.w) (fun s v => differenceFlags v s.w)

/-- R141, R149, R157: ANDWF, IORWF, XORWF; Z alone is affected. -/
def Obligations.LogicFileResults : Prop :=
  ResultByDest .andwf (fun s v => s.w &&& v) (fun s v => zeroFlag s (s.w &&& v)) ∧
  ResultByDest .iorwf (fun s v => s.w ||| v) (fun s v => zeroFlag s (s.w ||| v)) ∧
  ResultByDest .xorwf (fun s v => s.w ^^^ v) (fun s v => ⟨s.c, s.dc, decide (s.w = v)⟩)

/-- R144, R145, R147, R150: COMF, DECF, INCF, MOVF; Z alone is affected. -/
def Obligations.UnaryFileResults : Prop :=
  ResultByDest .comf (fun _ v => BitVec.ofNat 8 (255 - v.toNat)) (fun s v => ⟨s.c, s.dc, decide (v = 0xFF)⟩) ∧
  ResultByDest .decf (fun _ v => BitVec.ofNat 8 (v.toNat + 255)) (fun s v => ⟨s.c, s.dc, decide (v = 1)⟩) ∧
  ResultByDest .incf (fun _ v => BitVec.ofNat 8 (v.toNat + 1)) (fun s v => ⟨s.c, s.dc, decide (v = 0xFF)⟩) ∧
  ResultByDest .movf (fun _ v => v) (fun s v => zeroFlag s v)

/-- R153, R154, R156: RLF and RRF rotate the nine bits of C and f by one, and C alone is affected; SWAPF exchanges
the nibbles and affects no flag. -/
def Obligations.RotateAndSwapResults : Prop :=
  ResultByDest .rlf (fun s v => BitVec.ofNat 8 (2 * v.toNat + s.c.toNat))
    (fun s v => ⟨decide (128 ≤ v.toNat), s.dc, s.z⟩) ∧
  ResultByDest .rrf (fun s v => BitVec.ofNat 8 (v.toNat / 2 + 128 * s.c.toNat))
    (fun s v => ⟨decide (v.toNat % 2 = 1), s.dc, s.z⟩) ∧
  ResultByDest .swapf (fun _ v => BitVec.ofNat 8 (v.toNat % 16 * 16 + v.toNat / 16)) (fun s _ => keptFlags s)

/-- R142, R151: CLRF clears a general purpose register and sets Z; MOVWF stores W and affects no flag. -/
def Obligations.ClrfAndMovwfResults : Prop :=
  ResultInGpr .clrf (fun _ _ => 0) (fun s _ => ⟨s.c, s.dc, true⟩) ∧
  ResultInGpr .movwf (fun s _ => s.w) (fun s _ => keptFlags s)

/-- R143, R152: CLRW, whatever its don't-care bits, clears W and sets Z and touches no file register; NOP, for each
of its four words, changes nothing but PC. One cycle is counted for each, and the assembler's words are 0x0100 and
0x0000. -/
def Obligations.ClrwClearsWAndNopOnlyAdvances : Prop :=
  encode .clrw = 0x0100 ∧ encode .nop = 0x0000 ∧
  (∀ w : InstrWord, w &&& 0x3F80 = 0x0100 → decode w = .instr .clrw) ∧
  (∀ s, exec .clrw s = .next { oneCycle s with w := 0, z := true }) ∧
  (∀ w : InstrWord, w &&& 0x3F9F = 0 → decode w = .instr .nop) ∧
  ∀ s, exec .nop s = .next (oneCycle s)

/-- R146, R148, R184: DECFSZ and INCFSZ, with W or a general purpose register as destination, affect no flag and
skip exactly when the result is 0. -/
def Obligations.DecfszIncfszResultsAndSkip : Prop :=
  ∀ f s,
    (Readable f s →
      exec (.decfsz f .w) s =
        .next { passed (.decfsz f .w) (fileValue f s - 1) (afterRead f s) with w := fileValue f s - 1 } ∧
      exec (.incfsz f .w) s =
        .next { passed (.incfsz f .w) (fileValue f s + 1) (afterRead f s) with w := fileValue f s + 1 }) ∧
    ∀ n, fileKind f s = .gpr n →
      (∃ t, exec (.decfsz f .f) s = .next t ∧ gprRead t.gpr n = gprRead s.gpr n - 1 ∧
        (∀ m, m ≠ n → gprRead t.gpr m = gprRead s.gpr m) ∧
        t = { passed (.decfsz f .f) (gprRead s.gpr n - 1) s with gpr := t.gpr }) ∧
      (∃ t, exec (.incfsz f .f) s = .next t ∧ gprRead t.gpr n = gprRead s.gpr n + 1 ∧
        (∀ m, m ≠ n → gprRead t.gpr m = gprRead s.gpr m) ∧
        t = { passed (.incfsz f .f) (gprRead s.gpr n + 1) s with gpr := t.gpr })

/-! ## Bit-oriented instructions -/

/-- R180, R181: BCF and BSF on a general purpose register change bit `b` alone, and affect no flag. -/
def Obligations.BcfAndBsfChangeOneBit : Prop :=
  ∀ f b s n, fileKind f s = .gpr n →
    (∃ t, exec (.bcf f b) s = .next t ∧
      (∀ j < 8, (gprRead t.gpr n).getLsbD j = (decide (j ≠ b.toNat) && (gprRead s.gpr n).getLsbD j)) ∧
      (∀ m, m ≠ n → gprRead t.gpr m = gprRead s.gpr m) ∧ t = { oneCycle s with gpr := t.gpr }) ∧
    (∃ t, exec (.bsf f b) s = .next t ∧
      (∀ j < 8, (gprRead t.gpr n).getLsbD j = (decide (j = b.toNat) || (gprRead s.gpr n).getLsbD j)) ∧
      (∀ m, m ≠ n → gprRead t.gpr m = gprRead s.gpr m) ∧ t = { oneCycle s with gpr := t.gpr })

/-- R182, R183: BTFSC skips when the bit read is 0, BTFSS when it is 1; nothing is written, no flag is affected, and
the skip is exactly `pc + 2`, in two cycles; the only stops are the refusals of the read. -/
def Obligations.BitTestsSkipOnTheBit : Prop :=
  (∀ w : InstrWord, w &&& 0x3C00 = 0x1800 →
    decode w = .instr (.btfsc (w.extractLsb' 0 7) (w.extractLsb' 7 3))) ∧
  (∀ w : InstrWord, w &&& 0x3C00 = 0x1C00 →
    decode w = .instr (.btfss (w.extractLsb' 0 7) (w.extractLsb' 7 3))) ∧
  ∀ f b s,
    (Readable f s →
      exec (.btfsc f b) s = .next (if (fileValue f s).getLsbD b.toNat then oneCycle (afterRead f s)
        else twoCycles (s.pc + 2) (afterRead f s)) ∧
      exec (.btfss f b) s = .next (if (fileValue f s).getLsbD b.toNat then twoCycles (s.pc + 2) (afterRead f s)
        else oneCycle (afterRead f s))) ∧
    ∀ r, accessRefusal s.cfg (dataAddr f s) = some r →
      exec (.btfsc f b) s = .refused r ∧ exec (.btfss f b) s = .refused r

/-! ## Special destinations of the instructions that write a file register -/

/-- R67, R66, R158: a file operand behind which lies a register of an unmodelled device, a refused address, or INDF
without indirect addressing is refused by its own name, whatever the instruction. The refusals are the spec's
decisions (U14, U15, U16, log 26). -/
def Obligations.AccessToRefusedRegistersIsRefused : Prop :=
  ∀ i f s, fileOperand i = some f →
    (∀ name, fileKind f s = .device name → exec i s = .refused (.refusedDevice name)) ∧
    (fileKind f s = .refused → exec i s = .refused (.refusedAddress (dataAddr f s))) ∧
    (fileKind f s = .indf → s.cfg.hasIndirect = false → exec i s = .refused (.refusedAddress (dataAddr f s)))

/-- R69: an instruction that writes PCL reads the low byte of the next address (R68) and jumps to `PCLATH<4:0>` and
the 8 bits written, in two cycles, with its flags set and PCLATH unchanged; DECFSZ and INCFSZ onto PCL are refused.
The high bits from PCLATH and the refusal are the spec's decisions D6, D29 (log 12). -/
def Obligations.WriteToPclIsAComputedJump : Prop :=
  ∀ i s f r u a, fileWrite i s ((s.pc + 1).setWidth 8) = some (f, r, u, a) → fileKind f s = .pcl →
    exec i s =
      match i with
      | .decfsz _ _ => .refused (.refusedForm s.pc)
      | .incfsz _ _ => .refused (.refusedForm s.pc)
      | _ => .next (withFlags u (twoCycles (s.pclath ++ r) s))

/-- R70, under the layout of R41: STATUS reads as its eight bits; a write to it takes bits 7:5 of the value; C, DC,
Z are taken from it only by an instruction that affects none of them, and else are the instruction's own; TO and PD
keep their values. All of it is the spec's general knowledge (D4, D5, log 13). -/
def Obligations.StatusReadsWholeAndWritesAreMasked : Prop :=
  ∀ s, s.cfg.statusLayout = statusLayoutP84 →
    (∀ f, fileKind f s = .status →
      fileValue f s = BitVec.ofBool s.irp ++ BitVec.ofBool s.rp1 ++ BitVec.ofBool s.rp0 ++
        BitVec.ofBool s.toBit ++ BitVec.ofBool s.pdBit ++ BitVec.ofBool s.z ++ BitVec.ofBool s.dc ++
        BitVec.ofBool s.c) ∧
    ∀ i f r u a, fileWrite i s (fileValue f s) = some (f, r, u, a) → fileKind f s = .status →
      exec i s = .next { passed i r s with
        irp := r.getLsbD 7, rp1 := r.getLsbD 6, rp0 := r.getLsbD 5
        z := if a then u.z else r.getLsbD 2
        dc := if a then u.dc else r.getLsbD 1
        c := if a then u.c else r.getLsbD 0 }

/-- R71: writes to FSR and INTCON store all 8 bits, a write to PCLATH the low 5, and no other register changes. The
widths are the spec's general knowledge (log 1). -/
def Obligations.WritesToFsrPclathIntconStore : Prop :=
  ∀ i s f r u a,
    (fileWrite i s s.fsr = some (f, r, u, a) → fileKind f s = .fsr →
      exec i s = .next (withFlags u { passed i r s with fsr := r })) ∧
    (fileWrite i s (s.pclath.setWidth 8) = some (f, r, u, a) → fileKind f s = .pclath →
      exec i s = .next (withFlags u { passed i r s with pclath := r.extractLsb' 0 5 })) ∧
    (fileWrite i s s.intcon = some (f, r, u, a) → fileKind f s = .intcon →
      exec i s = .next (withFlags u { passed i r s with intcon := r }))

/-- R71, R243: a write to OPTION stores all 8 bits; the prescaler keeps its count unless bit 3, its assignment,
changes, and then nothing is said of the count. What is said of the prescaler is the spec's general knowledge (D32,
log 10). -/
def Obligations.WriteToOptionStores : Prop :=
  ∀ i s f r u a, fileWrite i s s.optionReg = some (f, r, u, a) → fileKind f s = .option →
    ∃ t, exec i s = .next t ∧
      t = withFlags u { passed i r s with optionReg := r, wdtps := t.wdtps, draws := t.draws } ∧
      (r.getLsbD 3 = s.optionReg.getLsbD 3 → t.wdtps = s.wdtps)

/-- R73, R242: every write to TMR0, MOVWF's included, stores the value, clears the prescaler when OPTION<3> assigns
it to Timer0, and inhibits the increment for the two cycles that follow the writing one, whose own clock it
overrides. That MOVWF counts is D28 (log 23); the inhibit is the spec's general knowledge, the overridden clock the
model's (log 20). -/
def Obligations.WriteToTmr0ClearsThePrescaler : Prop :=
  ∀ i s f r u a, fileWrite i s s.tmr0 = some (f, r, u, a) → fileKind f s = .tmr0 →
    exec i s = .next (withFlags u { passed i r s with
      tmr0 := r
      wdtps := if s.optionReg.getLsbD 3 then s.wdtps else 0
      tmr0Inhibit := 2
      timer0Due := if skipsOnZero i r then 1 else 0 })

/-- R72, R269 (note 1): an instruction that writes a port works on the value of the pins, the latch takes the
implemented bits of its result, and no TRIS register changes; nothing is said of the next value on the pins. The
implemented bits are the spec's general knowledge (log 1); the pins' model is log 9. -/
def Obligations.WriteToPortUsesThePins : Prop :=
  ∀ i s f r u a p, fileWrite i s (portValue p s) = some (f, r, u, a) → fileKind f s = .port p →
    ∃ t, exec i s = .next t ∧
      (getPort p t).latch = r &&& portMask s.cfg p ∧
      (∀ q, (getPort q t).tris = (getPort q s).tris) ∧
      (∀ q, q ≠ p → getPort q t = getPort q s) ∧
      t = withFlags u { passed i r s with
        portA := t.portA, portB := t.portB, portC := t.portC
        portbLast := if p = .b then portValue .b s else s.portbLast
        draws := t.draws }

/-- R71: a write to a TRIS register through its file address stores the implemented bits. The implemented bits are
the spec's general knowledge (log 1). -/
def Obligations.WriteToTrisStoresImplementedBits : Prop :=
  ∀ i s f r u a p, fileWrite i s (getPort p s).tris = some (f, r, u, a) → fileKind f s = .tris p →
    ∃ t, exec i s = .next t ∧
      getPort p t = { getPort p s with tris := r &&& portMask s.cfg p } ∧
      (∀ q, q ≠ p → getPort q t = getPort q s) ∧
      t = withFlags u { passed i r s with portA := t.portA, portB := t.portB, portC := t.portC }

/-- R66, R67: a write to an unimplemented address, or to INDF through INDF, works on the value 0x00, is discarded,
and still sets the instruction's flags. It is the spec's general knowledge (D3, log 1). -/
def Obligations.DiscardedWritesStillSetFlags : Prop :=
  ∀ i s f r u a, fileWrite i s 0 = some (f, r, u, a) →
    (fileKind f s = .unimplemented ∨ fileKind f s = .indf ∧ s.cfg.hasIndirect = true) →
    exec i s = .next (withFlags u (passed i r s))

/-! ## Addressing and the register map -/

/-- R65, R66: the data address is FSR for `f` = 0x00 where indirect addressing is modelled; else its low 7 bits are
`f` and bit 7 is RP0 where there is a bank bit, and 0 where there is none. The bank bit and FSR are the spec's
general knowledge (D2, D3, log 1). -/
def Obligations.DataAddressOfAFileOperand : Prop :=
  ∀ (f : FileAddr) (s : State),
    (s.cfg.hasIndirect = true → f = 0 → dataAddr f s = s.fsr) ∧
    (s.cfg.hasIndirect = false ∨ f ≠ 0 →
      (dataAddr f s).toNat = f.toNat + (if s.cfg.bankBit && s.rp0 then 128 else 0))

/-- R40: profile P84's register map: the 68 general purpose registers are the same in both banks, the core registers
are mirrored, and each bank's own registers are where the table puts them. The whole map is the spec's general
knowledge (log 1). -/
def Obligations.RegisterMapOfProfileP84 : Prop :=
  ∀ a : DataAddr, regKind p84 a =
    (if 0x0C ≤ a.toNat % 128 ∧ a.toNat % 128 ≤ 0x4F then .gpr (a.toNat % 128)
     else if a.toNat % 128 = 0x00 then .indf
     else if a.toNat % 128 = 0x02 then .pcl
     else if a.toNat % 128 = 0x03 then .status
     else if a.toNat % 128 = 0x04 then .fsr
     else if a.toNat % 128 = 0x0A then .pclath
     else if a.toNat % 128 = 0x0B then .intcon
     else if a.toNat = 0x01 then .tmr0
     else if a.toNat = 0x81 then .option
     else if a.toNat = 0x05 then .port .a
     else if a.toNat = 0x06 then .port .b
     else if a.toNat = 0x85 then .tris .a
     else if a.toNat = 0x86 then .tris .b
     else if a.toNat = 0x08 then .device .eedata
     else if a.toNat = 0x09 then .device .eeadr
     else if a.toNat = 0x88 then .device .eecon1
     else if a.toNat = 0x89 then .device .eecon2
     else .unimplemented)

/-- R66 to R68, R70, R71, R73: what every register but a port reads as: PCL the low byte of the next address, PCLATH
its five bits with zeros above, STATUS its eight bits under the layout of R41, INDF behind INDF and an unimplemented
address 0, and the others their contents; only a port read has a side effect (R77). The map behind the kinds and the
layout of STATUS are the spec's general knowledge (log 1). -/
def Obligations.ReadsOfCoreRegisters : Prop :=
  ∀ (f : FileAddr) (s : State),
    (fileKind f s = .pcl → fileValue f s = (s.pc + 1).extractLsb' 0 8) ∧
    (fileKind f s = .pclath → fileValue f s = 0#3 ++ s.pclath) ∧
    (fileKind f s = .fsr → fileValue f s = s.fsr) ∧
    (fileKind f s = .intcon → fileValue f s = s.intcon) ∧
    (fileKind f s = .option → fileValue f s = s.optionReg) ∧
    (fileKind f s = .tmr0 → fileValue f s = s.tmr0) ∧
    (∀ n, fileKind f s = .gpr n → fileValue f s = gprRead s.gpr n) ∧
    (∀ p, fileKind f s = .tris p → fileValue f s = (getPort p s).tris) ∧
    (s.cfg.statusLayout = statusLayoutP84 → fileKind f s = .status →
      fileValue f s = BitVec.ofBool s.irp ++ BitVec.ofBool s.rp1 ++ BitVec.ofBool s.rp0 ++
        BitVec.ofBool s.toBit ++ BitVec.ofBool s.pdBit ++ BitVec.ofBool s.z ++ BitVec.ofBool s.dc ++
        BitVec.ofBool s.c) ∧
    (fileKind f s = .indf → fileValue f s = 0) ∧
    (fileKind f s = .unimplemented → fileValue f s = 0) ∧
    ((∀ p, fileKind f s ≠ .port p) → afterRead f s = s)

/-- R72, R236: a port read gives the implemented bits of what the environment put on the pins, not the latch; where
the environment has said nothing, nothing is said of them. It latches PORTB's value for the RB source, changes no
latch and no TRIS register, leaves the next value on the pins open again, and changes nothing else. The fresh draw
and the latched value are the model's (log 9, log 31). -/
def Obligations.PortReadGivesThePins : Prop :=
  ∀ (f : FileAddr) (s : State) (p : PortId), fileKind f s = .port p →
    fileValue f s = portValue p s ∧
    (∀ v, (getPort p s).pins = some v → fileValue f s = v &&& portMask s.cfg p) ∧
    fileValue f s &&& ~~~(portMask s.cfg p) = 0 ∧
    (∀ q, (getPort q (afterRead f s)).latch = (getPort q s).latch ∧
      (getPort q (afterRead f s)).tris = (getPort q s).tris) ∧
    (∀ q, q ≠ p → getPort q (afterRead f s) = getPort q s) ∧
    (getPort p (afterRead f s)).pins = none ∧
    (afterRead f s).portbLast = (if p = .b then fileValue f s else s.portbLast) ∧
    afterRead f s = { s with
      portA := (afterRead f s).portA, portB := (afterRead f s).portB, portC := (afterRead f s).portC
      portbLast := (afterRead f s).portbLast, draws := (afterRead f s).draws }

/-! ## Literal instructions -/

/-- R190, R194: ADDLW and SUBLW, for every value of their don't-care bits; the literal is SUBLW's minuend. C on
additions and DC are the spec's own reading of their names (D7, log 14). -/
def Obligations.AddlwAndSublwResults : Prop :=
  (∀ w : InstrWord, w &&& 0x3E00 = 0x3E00 → decode w = .instr (.addlw (w.extractLsb' 0 8))) ∧
  (∀ w : InstrWord, w &&& 0x3E00 = 0x3C00 → decode w = .instr (.sublw (w.extractLsb' 0 8))) ∧
  ∀ (k : Byte) (s : State),
    exec (.addlw k) s = .next (withFlags (sumFlags s.w k) { oneCycle s with w := s.w + k }) ∧
    exec (.sublw k) s = .next (withFlags (differenceFlags k s.w) { oneCycle s with w := k - s.w })

/-- R191, R192, R195: ANDLW, IORLW, XORLW; Z alone is affected. -/
def Obligations.LogicLiteralResults : Prop :=
  (∀ w : InstrWord, w &&& 0x3F00 = 0x3900 → decode w = .instr (.andlw (w.extractLsb' 0 8))) ∧
  (∀ w : InstrWord, w &&& 0x3F00 = 0x3800 → decode w = .instr (.iorlw (w.extractLsb' 0 8))) ∧
  (∀ w : InstrWord, w &&& 0x3F00 = 0x3A00 → decode w = .instr (.xorlw (w.extractLsb' 0 8))) ∧
  ∀ (k : Byte) (s : State),
    exec (.andlw k) s = .next { oneCycle s with w := s.w &&& k, z := decide (s.w &&& k = 0) } ∧
    exec (.iorlw k) s = .next { oneCycle s with w := s.w ||| k, z := decide (s.w = 0 ∧ k = 0) } ∧
    exec (.xorlw k) s = .next { oneCycle s with w := s.w ^^^ k, z := decide (s.w = k) }

/-- R193: MOVLW, for every value of its don't-care bits, which the assembler makes 0, loads W and affects no
flag. -/
def Obligations.MovlwLoadsW : Prop :=
  (∀ k : Byte, (encode (.movlw k)).toNat = 0x3000 + k.toNat) ∧
  (∀ w : InstrWord, w &&& 0x3C00 = 0x3000 → decode w = .instr (.movlw (w.extractLsb' 0 8))) ∧
  ∀ (k : Byte) (s : State), exec (.movlw k) s = .next { oneCycle s with w := k }

/-! ## Control instructions -/

/-- R201: GOTO goes to the address whose low 11 bits are `k` and whose high 2 bits are PCLATH<4:3>, in two cycles,
and changes nothing else. -/
def Obligations.GotoTarget : Prop :=
  (∀ w : InstrWord, w &&& 0x3800 = 0x2800 → decode w = .instr (.goto (w.extractLsb' 0 11))) ∧
  ∀ (k : BitVec 11) (s : State), ∃ a : ProgAddr,
    a.extractLsb' 0 11 = k ∧ a.extractLsb' 11 2 = s.pclath.extractLsb' 3 2 ∧
    exec (.goto k) s = .next (twoCycles a s)

/-- R200, R32: CALL pushes `pc + 1` and goes where GOTO goes. On a full stack it faults, or, where the configuration
says circular (log 11), the oldest entry is lost. The fault is the spec's decision D8 (log 11). -/
def Obligations.CallPushesAndJumps : Prop :=
  (∀ w : InstrWord, w &&& 0x3800 = 0x2000 → decode w = .instr (.call (w.extractLsb' 0 11))) ∧
  ∀ (k : BitVec 11) (s : State), ∃ a : ProgAddr,
    a.extractLsb' 0 11 = k ∧ a.extractLsb' 11 2 = s.pclath.extractLsb' 3 2 ∧
    (s.stack.length < s.cfg.stackDepth →
      exec (.call k) s = .next { twoCycles a s with stack := (s.pc + 1) :: s.stack }) ∧
    (s.cfg.stackDepth ≤ s.stack.length → s.cfg.stackMode = .fault →
      exec (.call k) s = .fault (.stackOverflow s.pc)) ∧
    (s.cfg.stackDepth ≤ s.stack.length → s.cfg.stackMode = .circular →
      exec (.call k) s = .next { twoCycles a s with stack := ((s.pc + 1) :: s.stack).take s.cfg.stackDepth })

/-- R202, R203, R204, R33: RETURN, RETLW and RETFIE pop all 13 bits of PC; RETLW loads W and RETFIE sets GIE, and
neither does so when the empty stack faults. Where the configuration says circular (log 11), they go on from an
empty stack to an address nothing is said of. The fault is the spec's decision D8 (log 11). -/
def Obligations.ReturnsPopThePc : Prop :=
  decode 0x0008 = .instr .ret ∧ decode 0x0009 = .instr .retfie ∧
  (∀ w : InstrWord, w &&& 0x3C00 = 0x3400 → decode w = .instr (.retlw (w.extractLsb' 0 8))) ∧
  ∀ (s : State) (k : Byte),
    (∀ a rest, s.stack = a :: rest →
      exec .ret s = .next { twoCycles a s with stack := rest } ∧
      exec (.retlw k) s = .next { twoCycles a s with stack := rest, w := k } ∧
      exec .retfie s = .next { twoCycles a s with stack := rest, intcon := s.intcon ||| 0x80 }) ∧
    (s.stack = [] → s.cfg.stackMode = .fault →
      exec .ret s = .fault (.stackUnderflow s.pc) ∧ exec (.retlw k) s = .fault (.stackUnderflow s.pc) ∧
      exec .retfie s = .fault (.stackUnderflow s.pc)) ∧
    (s.stack = [] → s.cfg.stackMode = .circular →
      ∃ a d, exec .ret s = .next { twoCycles a s with draws := d } ∧
        exec (.retlw k) s = .next { twoCycles a s with draws := d, w := k } ∧
        exec .retfie s = .next { twoCycles a s with draws := d, intcon := s.intcon ||| 0x80 })

/-- R200, R202, R238, R240: a CALL and the RETURN that answers it, and an interrupt entry and the RETFIE right after
it, resume where the program stood, with the stack and INTCON as they were, and change nothing else, but for the
cycles that Timer0 takes between the two, and the flags set then. The cycles an entry counts and the entry at once
are the model's (log 7, log 21). The entry itself is the spec's decision D16. -/
def Obligations.CallReturnAndEntryRetfieResume : Prop :=
  ∀ s : State, s.stack.length < s.cfg.stackDepth →
    (∀ k : BitVec 11, ∃ t u, exec (.call k) s = .next t ∧ exec .ret t = .next u ∧
      u = { s with
        pc := s.pc + 1, cycles := s.cycles + 4, wdtAge := s.wdtAge + 4, timer0Due := s.timer0Due + 4 }) ∧
    (s.inputs = [] → intEntryEnabled s = true →
      (∃ t u, takeInterrupt s = .next t ∧ exec .retfie t = .next u ∧
        u = { s with cycles := s.cycles + 4, wdtAge := s.wdtAge + 4, timer0Due := s.timer0Due + 4 }) ∧
      ∃ t u, step s = .next t ∧ exec .retfie t = .next u ∧
        u = { s with
          cycles := s.cycles + 4, wdtAge := s.wdtAge + 4, timer0Due := 2
          tmr0 := u.tmr0, wdtps := u.wdtps, tmr0Inhibit := u.tmr0Inhibit, intcon := u.intcon, eeif := u.eeif } ∧
        s.intcon &&& ~~~u.intcon = 0)

/-- R205: CLRWDT clears WDT, and the prescaler while OPTION<3> assigns it to the Watchdog (D32), and sets TO and PD,
whether or not the Watchdog runs. The condition on OPTION<3> is the spec's decision (log 22). -/
def Obligations.ClrwdtClearsTheWatchdog : Prop :=
  decode 0x0064 = .instr .clrwdt ∧
  ∀ s, exec .clrwdt s = .next { oneCycle s with
    wdt := 0, wdtAge := 0, wdtps := if s.optionReg.getLsbD 3 then 0 else s.wdtps, toBit := true, pdBit := true }

/-- R206, R247: SLEEP clears WDT and its prescaler, sets TO, clears PD, and sleeps with PC at the next word; only
where the configuration asks for it is it a NOP while an enabled request is pending. The condition on OPTION<3> is
the spec's decision D32 (log 22), the NOP its option (C21, log 15). -/
def Obligations.SleepEntersStandby : Prop :=
  ∀ s,
    ((s.cfg.sleepNopIfPending = false ∨ intReq s = false) →
      exec .sleep s = .next { oneCycle s with
        wdt := 0, wdtAge := 0, wdtps := if s.optionReg.getLsbD 3 then 0 else s.wdtps
        toBit := true, pdBit := false, sleeping := true }) ∧
    (s.cfg.sleepNopIfPending = true → intReq s = true → exec .sleep s = .next (oneCycle s))

/-! ## OPTION and TRIS -/

/-- R220: OPTION loads OPTION from W, whatever bank is selected; the prescaler keeps its count unless its
assignment changes (R243), and then nothing is said of the count. What is said of the prescaler is the spec's
general knowledge (D32, log 1, log 10). -/
def Obligations.OptionLoadsFromW : Prop :=
  decode 0x0062 = .instr .option ∧
  ∀ s, ∃ t, exec .option s = .next t ∧
    t = { oneCycle s with optionReg := s.w, wdtps := t.wdtps, draws := t.draws } ∧
    (s.w.getLsbD 3 = s.optionReg.getLsbD 3 → t.wdtps = s.wdtps)

/-- R221: TRIS 5, 6 and 7 load the implemented bits of W into the TRIS register of that number, where the part has
it; a number whose register the part lacks is refused. The implemented bits and the refusal are the spec's decisions
(D25, log 1, log 24). -/
def Obligations.TrisLoadsFromW : Prop :=
  decode 0x0065 = .instr (.tris 5) ∧ decode 0x0066 = .instr (.tris 6) ∧ decode 0x0067 = .instr (.tris 7) ∧
  ∀ s,
    (∀ m, s.cfg.portA = some m →
      exec (.tris 5) s = .next { oneCycle s with portA := { s.portA with tris := s.w &&& m } }) ∧
    (∀ m, s.cfg.portB = some m →
      exec (.tris 6) s = .next { oneCycle s with portB := { s.portB with tris := s.w &&& m } }) ∧
    (∀ m, s.cfg.portC = some m →
      exec (.tris 7) s = .next { oneCycle s with portC := { s.portC with tris := s.w &&& m } }) ∧
    (s.cfg.portA = none → exec (.tris 5) s = .refused (.refusedForm s.pc)) ∧
    (s.cfg.portB = none → exec (.tris 6) s = .refused (.refusedForm s.pc)) ∧
    (s.cfg.portC = none → exec (.tris 7) s = .refused (.refusedForm s.pc))

/-! ## What no instruction does -/

/-- R26, R48: a flag that the table of "Status Affected" does not list for an instruction keeps its value, unless
the instruction's destination is the STATUS register. -/
def Obligations.FlagsNotListedKeepTheirValue : Prop :=
  ∀ i s t g, exec i s = .next t → g ∉ statusAffected i → ¬ WritesKind i s .status →
    flagValue g t = flagValue g s

/-- R30, R70: TO and PD are written by CLRWDT and SLEEP alone, not even through STATUS. That STATUS writes leave
them is the spec's general knowledge (log 13). -/
def Obligations.OnlyClrwdtAndSleepWriteToAndPd : Prop :=
  ∀ i s t, exec i s = .next t → i ≠ .clrwdt → i ≠ .sleep → t.toBit = s.toBit ∧ t.pdBit = s.pdBit

/-- R12: unless the instruction assigns PC, by a jump, a return, a taken skip or a write to PCL (R24), the next
instruction is at `pc + 1` modulo 2^13. The wrap is the spec's inference (D12). -/
def Obligations.DefaultSuccessorIsTheNextAddress : Prop :=
  ∀ i s t, exec i s = .next t → ¬ AssignsPc i s → t.pc.toNat = (s.pc.toNat + 1) % 2 ^ 13

/-- R20: W changes only by an instruction that writes it; R31: the stack only by CALL and the returns; R38: only
SLEEP sleeps; R25: PCLATH only through its file address; R34: GIE only by RETFIE or through INTCON's. Where PCLATH,
FSR, INTCON lie is the spec's general knowledge (log 1). -/
def Obligations.CoreRegistersChangeOnlyByTheirInstructions : Prop :=
  ∀ i s t, exec i s = .next t →
    (writesW i = false → t.w = s.w) ∧
    (usesStack i = false → t.stack = s.stack) ∧
    (i ≠ .sleep → t.sleeping = s.sleeping) ∧
    (¬ WritesKind i s .pclath → t.pclath = s.pclath) ∧
    (i ≠ .retfie → ¬ WritesKind i s .intcon → t.intcon = s.intcon) ∧
    (¬ WritesKind i s .fsr → t.fsr = s.fsr)

/-- R21, R67: a general purpose register that is not the one behind the instruction's file operand reads as before,
and an instruction without a file destination changes none. -/
def Obligations.OnlyTheAddressedRegisterChanges : Prop :=
  ∀ i s t n, exec i s = .next t → ¬ WritesKind i s (.gpr n) → gprRead t.gpr n = gprRead s.gpr n

/-- R81: the destinations of the instructions are W, a file register, PC, the stack, status bits, GIE, OPTION, TRIS,
WDT and WDTPS, and SLEEP's state: none writes the program space, the configuration, EEIF or the environment's
choices; and no step at all changes the program or the configuration (R7, R60). R81 is the spec's inference from the
opcode table; the configuration's place is the model's (log 2). -/
def Obligations.NothingWritesTheProgramOrTheConfiguration : Prop :=
  (∀ i s t, exec i s = .next t →
    t.prog = s.prog ∧ t.cfg = s.cfg ∧ t.eeif = s.eeif ∧ t.afterWake = s.afterWake ∧ t.inputs = s.inputs) ∧
  ∀ s t, step s = .next t → t.prog = s.prog ∧ t.cfg = s.cfg

/-! ## Interrupts -/

/-- R235 to R238: under P84's four sources an entry is enabled exactly when the core is awake, GIE is set, some
source has its enable and its flag, and no word after SLEEP is still due (R247). Where it is enabled and the
environment silent, it pushes PC, clears GIE and goes to `INT_VECTOR`, and changes nothing else, and then the agents
act; on a full stack it faults where the configuration says fault, and drops the oldest entry where it says
circular. R237 lets the environment delay an entry: that a silent environment takes it at once is the model's choice
(log 7), and so are the word after SLEEP that holds it back (log 17), the two cycles counted (log 21) and the
circular stack (log 11). The entry is the spec's decision D16, the sources its general knowledge (log 1). -/
def Obligations.InterruptEntryPushesPcAndClearsGie : Prop :=
  ∀ s : State,
    (s.cfg.intSources = p84.intSources →
      (intEntryEnabled s = true ↔
        s.sleeping = false ∧ s.afterWake = false ∧ s.intcon.getLsbD 7 = true ∧
        (s.intcon.getLsbD 4 = true ∧ s.intcon.getLsbD 1 = true ∨
         s.intcon.getLsbD 5 = true ∧ s.intcon.getLsbD 2 = true ∨
         s.intcon.getLsbD 3 = true ∧ s.intcon.getLsbD 0 = true ∨
         s.intcon.getLsbD 6 = true ∧ s.eeif = true))) ∧
    (s.inputs = [] → intEntryEnabled s = true →
      (s.stack.length < s.cfg.stackDepth →
        step s = .next (agentsAct s
          { twoCycles s.cfg.intVector s with stack := s.pc :: s.stack, intcon := s.intcon &&& 0x7F })) ∧
      (s.cfg.stackDepth ≤ s.stack.length → s.cfg.stackMode = .fault →
        step s = .fault (.stackOverflow s.pc)) ∧
      (s.cfg.stackDepth ≤ s.stack.length → s.cfg.stackMode = .circular →
        step s = .next (agentsAct s
          { twoCycles s.cfg.intVector s with
            stack := (s.pc :: s.stack).take s.cfg.stackDepth, intcon := s.intcon &&& 0x7F })))

/-- R239: at one boundary a reset comes before a Watchdog time-out, that before an interrupt entry, and that before
the next instruction; after the last two the agents act. The order is the spec's decision D17 (log 8). -/
def Obligations.BoundaryPrecedence : Prop :=
  ∀ (b : Boundary) (s : State),
    (∀ line, b.reset = some line → step (offered b s) = .next (applyReset (resetCauseOf line s) s)) ∧
    (b.reset = none → b.wdtTimeout = true → wdtDue s = true → step (offered b s) = .next (wdtTimeout s)) ∧
    (b.reset = none → b.wdtTimeout = false ∨ wdtDue s = false → b.postpone = false → intEntryEnabled s = true →
      step (offered b s) = thenAgents s (takeInterrupt s)) ∧
    (b.reset = none → b.wdtTimeout = false ∨ wdtDue s = false → s.sleeping = false →
      b.postpone = true ∨ intEntryEnabled s = false → step (offered b s) = thenAgents s (instrStep s))

/-! ## The environment -/

/-- R251, R235: a step of the environment leaves everything of the core alone, TMR0, WDT and WDTPS with their ages,
the pins and the interrupt flags excepted; it clears no flag, and under P84's sources it changes no enable bit. The
list of inputs is the model's (D14, log 7). -/
def Obligations.EnvironmentStepsTouchOnlyTheirOwn : Prop :=
  ∀ e rest s, s.inputs = .env e :: rest →
    ∃ t, step s = .next t ∧
      t = { s with
        inputs := rest
        tmr0 := t.tmr0, wdt := t.wdt, wdtps := t.wdtps, wdtAge := t.wdtAge
        intcon := t.intcon, eeif := t.eeif
        portA := { s.portA with pins := t.portA.pins }
        portB := { s.portB with pins := t.portB.pins }
        portC := { s.portC with pins := t.portC.pins } } ∧
      (s.cfg.intSources = p84.intSources → t.intcon &&& 0xF8 = s.intcon &&& 0xF8) ∧
      s.intcon &&& ~~~t.intcon = 0 ∧ (s.eeif = true → t.eeif = true)

/-- R242, R243, under P84's sources: a clock of Timer0 counts TMR0 modulo 256, through the prescaler where that is
assigned to Timer0, and sets T0IF exactly when TMR0 wraps, unless a write within the last two cycles inhibits it.
With T0CS = 1 it is an edge on RA4/T0CKI, rising where T0SE = 0 and falling where it is 1, that clocks Timer0; with
T0CS = 0 it is each instruction cycle of an awake core; and each cycle uses up one of the inhibit. All of it is the
spec's general knowledge (log 1); the agent's moment is the model's (log 20). -/
def Obligations.Timer0CountsThroughThePrescaler : Prop :=
  ∀ s : State, s.cfg.intSources = p84.intSources →
    (∀ rising, applyEnv (.timer0Edge rising) s =
      if s.optionReg.getLsbD 5 = true ∧ rising = !s.optionReg.getLsbD 4 then clocked s else s) ∧
    timer0Cycle s =
      { (if s.optionReg.getLsbD 5 = false ∧ s.sleeping = false then clocked s else s) with
        tmr0Inhibit := s.tmr0Inhibit - 1 }

/-- R236, under P84's sources: an edge on RB0/INT of the direction INTEDG selects sets INTF, the other does nothing;
the environment sets EEIF. RBIF is set after an instruction exactly when the condition of the RB source stands, and
by new pins of port B exactly when an input among RB7:RB4 then differs from the value last read. The sources are the
spec's general knowledge (log 1); when they are seen is the model's (log 31, log 33). -/
def Obligations.InterruptSourcesSetTheirFlags : Prop :=
  ∀ s : State, s.cfg.intSources = p84.intSources →
    (∀ rising, applyEnv (.intEdge rising) s =
      if rising = s.optionReg.getLsbD 6 then { s with intcon := s.intcon ||| 0x02 } else s) ∧
    applyEnv (.raiseFlag .ee) s = { s with eeif := true } ∧
    (∀ before, agentsAct before s = timer0Acts (rbSense before.portbLast s)) ∧
    (∀ last, RbDiffers last s → rbSense last s = { s with intcon := s.intcon ||| 0x01 }) ∧
    (∀ last, ¬ RbDiffers last s → rbSense last s = s) ∧
    ∀ v : Byte,
      ((∃ j, 4 ≤ j ∧ j < 8 ∧ s.portB.tris.getLsbD j = true ∧ v.getLsbD j ≠ s.portbLast.getLsbD j) →
        applyEnv (.pins .b v) s =
          { s with portB := { s.portB with pins := some v }, intcon := s.intcon ||| 0x01 }) ∧
      ((∀ j, 4 ≤ j → j < 8 → s.portB.tris.getLsbD j = true → v.getLsbD j = s.portbLast.getLsbD j) →
        applyEnv (.pins .b v) s = { s with portB := { s.portB with pins := some v } })

/-! ## SLEEP, wake-up, Watchdog, reset -/

/-- R38, R247: under P84's sources a waking request is an enabled and flagged INT, RB or EE, whatever GIE is; T0
cannot wake. Asleep, with a silent environment, a waking request ends SLEEP, with TO and PD unchanged, and the word
after SLEEP is executed before an entry; without one nothing changes: the machine is stuck, not faulted (U18). That
a silent environment wakes the core at once is the model's choice (log 7), and so are that the model then answers the
same state (log 16) and the held-back entry (log 17). The waking sources are the spec's decision D20 (log 1). -/
def Obligations.SleepEndsByAWakingRequestOnly : Prop :=
  ∀ s : State,
    (s.cfg.intSources = p84.intSources → s.cfg.wakeSources = p84.wakeSources →
      (wakeReq s = true ↔
        s.intcon.getLsbD 4 = true ∧ s.intcon.getLsbD 1 = true ∨
        s.intcon.getLsbD 3 = true ∧ s.intcon.getLsbD 0 = true ∨
        s.intcon.getLsbD 6 = true ∧ s.eeif = true)) ∧
    (s.inputs = [] → s.sleeping = true →
      (wakeReq s = false → step s = .next s) ∧
      (wakeReq s = true →
        step s = .next { s with sleeping := false, afterWake := true } ∧
        ∀ word i, progRead s.prog s.pc = some word → decode word = .instr i →
          step { s with sleeping := false, afterWake := true } =
            thenAgents s (exec i { s with sleeping := false, afterWake := false })))

/-- R244: a time-out can occur exactly where the Watchdog runs and at least one and `WDT_MIN_CYCLES` cycles have
passed since WDT was cleared. Asleep it wakes the core with TO cleared and PD kept; awake it is a reset. Elsewhere
an offered time-out changes nothing. The time-out is the spec's decision D21; its count of cycles is the model's
(log 19, log 27). -/
def Obligations.WatchdogTimeoutWakesOrResets : Prop :=
  ∀ (s : State) (b : Boundary),
    (b.reset = none → b.wdtTimeout = true → s.cfg.wdtEnabled = true → 1 ≤ s.wdtAge →
      s.cfg.wdtMinCycles ≤ s.wdtAge →
      (s.sleeping = true → step (offered b s) = .next { s with sleeping := false, toBit := false }) ∧
      (s.sleeping = false → step (offered b s) = .next (applyReset .wdtReset s))) ∧
    (s.cfg.wdtEnabled = false ∨ s.wdtAge < s.cfg.wdtMinCycles ∨ s.wdtAge = 0 →
      step (offered { b with wdtTimeout := true } s) = step (offered { b with wdtTimeout := false } s))

/-- R47, R260, R262: what MCLR and Watchdog resets leave: PC, SLEEP, the stack, the bank bits, PCLATH, OPTION, TRIS,
WDT and WDTPS take their reset values; of INTCON, GIE, the enables and the flags T0IF and INTF are cleared and RBIF
is unchanged; TO and PD are those of the cause; and everything else is unchanged. An MCLR reset is `MclrSleep` where
the core sleeps and `Mclr` where it is awake. The values are the spec's general knowledge (D19, log 4; PD after the
Watchdog, log 18). That Timer0's inhibit and due cycles (log 20), the Watchdog's age (log 19) and the held-back entry
(log 17) are cleared, and the value of TRIS[7] (log 24), are the model's choices. -/
def Obligations.ResetValuesByCause : Prop :=
  (∀ (s : State) (b : Boundary), b.reset = some .mclr →
    step (offered b s) = .next (applyReset (if s.sleeping then .mclrSleep else .mclr) s)) ∧
  ∀ s cause, cause ≠ .powerOn →
    applyReset cause s = { s with
      pc := s.cfg.resetVector, sleeping := false, afterWake := false, stack := []
      intcon := s.intcon &&& 0x01, rp0 := false, rp1 := false, irp := false, pclath := 0, optionReg := 0xFF
      portA := { s.portA with tris := portMask s.cfg .a }
      portB := { s.portB with tris := portMask s.cfg .b }
      portC := { s.portC with tris := portMask s.cfg .c }
      tmr0Inhibit := 0, timer0Due := 0, wdt := 0, wdtps := 0, wdtAge := 0
      toBit := (match cause with | .mclrSleep => true | .wdtReset => false | _ => s.toBit)
      pdBit := (match cause with | .mclrSleep => false | .wdtReset => true | _ => s.pdBit) }

/-- R47, R260, R261, R262: what the spec gives of a power-on reset, from any state, and of the state after reset
under P84; the registers the spec calls unknown are not mentioned. The values are the spec's general knowledge (D19,
log 4). -/
def Obligations.PowerOnResetValues : Prop :=
  (∀ (s : State) (b : Boundary), b.reset = some .powerOn →
    ∃ t, step (offered b s) = .next t ∧
      t.pc = s.cfg.resetVector ∧ t.sleeping = false ∧ t.stack = [] ∧ t.intcon &&& 0xFE = 0 ∧
      t.toBit = true ∧ t.pdBit = true ∧ t.irp = false ∧ t.rp1 = false ∧ t.rp0 = false ∧ t.pclath = 0 ∧
      t.optionReg = 0xFF ∧ t.portA.tris = portMask s.cfg .a ∧ t.portB.tris = portMask s.cfg .b ∧
      t.wdt = 0 ∧ t.wdtps = 0 ∧ t.cfg = s.cfg ∧ t.prog = s.prog) ∧
  State.reset.pc = 0x0000 ∧ State.reset.sleeping = false ∧ State.reset.stack = [] ∧
  State.reset.intcon &&& 0xFE = 0 ∧ State.reset.toBit = true ∧ State.reset.pdBit = true ∧
  State.reset.irp = false ∧ State.reset.rp1 = false ∧ State.reset.rp0 = false ∧ State.reset.pclath = 0 ∧
  State.reset.optionReg = 0xFF ∧ State.reset.portA.tris = 0x1F ∧ State.reset.portB.tris = 0xFF ∧
  State.reset.wdt = 0 ∧ State.reset.wdtps = 0

/-! ## The invariant -/

/-- R31, R71, R242, R247, and the canonical form of both stores: every step of the machine keeps the invariant,
from every state that has it. The canonical forms are the model's (log 5, log 6), and so are the bit that holds an
entry back (log 17) and the cycles due for Timer0 (log 20). -/
def Obligations.StepKeepsTheMachineInvariant : Prop :=
  ∀ s t, MachineInv s → step s = .next t → MachineInv t

/-- The invariant holds after reset. -/
def Obligations.ResetHasTheMachineInvariant : Prop := MachineInv State.reset

/-! ## Timer0 on the instruction-cycle clock -/

/-- R242, R243, R266: with T0CS = 0 Timer0 counts the instruction cycles of an awake core, the cycles of the inhibit
left out: with the prescaler assigned to the Watchdog it adds their number modulo 256 and sets T0IF when it wraps;
through the prescaler it adds the multiples of `2^(PS+1)` that the prescaler passes. With T0CS = 1, or asleep, it
stands still. All of it is the spec's general knowledge (log 1); the agent's moment is the model's (log 20). -/
def Obligations.Timer0TakesTheInstructionCycles : Prop :=
  ∀ s : State,
    (s.sleeping = false → s.optionReg.getLsbD 5 = false → s.optionReg.getLsbD 3 = true →
      (timer0Acts s).tmr0.toNat = (s.tmr0.toNat + (s.timer0Due - s.tmr0Inhibit)) % 256 ∧
      (timer0Acts s).wdtps = s.wdtps ∧
      (s.cfg.intSources = p84.intSources →
        (timer0Acts s).intcon.getLsbD 2 =
          (s.intcon.getLsbD 2 || decide (256 ≤ s.tmr0.toNat + (s.timer0Due - s.tmr0Inhibit))))) ∧
    (s.sleeping = false → s.optionReg.getLsbD 5 = false → s.optionReg.getLsbD 3 = false → s.tmr0Inhibit = 0 →
      (timer0Acts s).wdtps.toNat = (s.wdtps.toNat + s.timer0Due) % 256 ∧
      (timer0Acts s).tmr0.toNat =
        (s.tmr0.toNat + ((s.wdtps.toNat + s.timer0Due) / 2 ^ ((s.optionReg.extractLsb' 0 3).toNat + 1) -
          s.wdtps.toNat / 2 ^ ((s.optionReg.extractLsb' 0 3).toNat + 1))) % 256) ∧
    (s.sleeping = true ∨ s.optionReg.getLsbD 5 = true →
      timer0Acts s = { s with tmr0Inhibit := s.tmr0Inhibit - s.timer0Due, timer0Due := 0 })
end

