-- ==== Sys2Proof/Laws/Memory.lean ====
section
/-! SUPPORT. The laws of the two stores: a read after a write, and that every operation keeps the canonical form. -/

namespace Sys2Proof.Machine

section Cells

variable {α : Type}

theorem cellRead_cellInsert (m : List (Nat × α)) (a b : Nat) (v : α) :
    cellRead (cellInsert m a v) b = if b = a then some v else cellRead m b := by
  induction m with
  | nil => simp [cellInsert, cellRead]
  | cons e rest ih =>
    obtain ⟨x, u⟩ := e
    by_cases h1 : a < x
    · simp only [cellInsert, h1, if_true, cellRead]
    · by_cases h2 : a = x
      · simp only [cellInsert, h2, lt_irrefl, if_false, if_true, cellRead]; split_ifs <;> rfl
      · simp only [cellInsert, h1, h2, if_false, cellRead, ih]
        by_cases hb : b = a
        · simp [hb, h2]
        · simp [hb]

theorem cellRead_cellErase (m : List (Nat × α)) (a b : Nat) :
    cellRead (cellErase m a) b = if b = a then none else cellRead m b := by
  induction m with
  | nil => simp [cellErase, cellRead]
  | cons e rest ih =>
    obtain ⟨x, u⟩ := e
    unfold cellErase
    split_ifs with h1 h2 h2
    · rw [ih, if_pos h2]
    · subst h1; rw [ih, if_neg h2]; simp [cellRead, h2]
    · subst h2; simp [cellRead, h1, ih]
    · by_cases hx : b = x <;> simp [cellRead, ih, h2, hx]

theorem risingFrom_mono {lo lo' : Nat} (m : List (Nat × α)) (h : lo' ≤ lo) (hm : risingFrom lo m = true) :
    risingFrom lo' m = true := by
  cases m with
  | nil => rfl
  | cons e rest =>
    simp only [risingFrom, Bool.and_eq_true, decide_eq_true_eq] at hm ⊢
    exact ⟨le_trans h hm.1, hm.2⟩

theorem risingFrom_cellInsert (m : List (Nat × α)) {lo a : Nat} (v : α) (h : lo ≤ a)
    (hm : risingFrom lo m = true) : risingFrom lo (cellInsert m a v) = true := by
  induction m generalizing lo with
  | nil => simp [cellInsert, risingFrom, h]
  | cons e rest ih =>
    obtain ⟨x, u⟩ := e
    simp only [risingFrom, Bool.and_eq_true, decide_eq_true_eq] at hm
    unfold cellInsert
    split_ifs with h1 h2
    · simp [risingFrom, h, hm.2, Nat.succ_le_of_lt h1]
    · subst h2; simp [risingFrom, h, hm.2]
    · simp [risingFrom, hm.1, ih (by omega) hm.2]

theorem risingFrom_cellErase (m : List (Nat × α)) {lo a : Nat} (hm : risingFrom lo m = true) :
    risingFrom lo (cellErase m a) = true := by
  induction m generalizing lo with
  | nil => rfl
  | cons e rest ih =>
    obtain ⟨x, u⟩ := e
    simp only [risingFrom, Bool.and_eq_true, decide_eq_true_eq] at hm
    unfold cellErase
    split_ifs with h
    · exact risingFrom_mono _ (by omega) (ih hm.2)
    · simp [risingFrom, hm.1, ih hm.2]

theorem all_cellInsert (p : Nat × α → Bool) (m : List (Nat × α)) (a : Nat) (v : α) (h : p (a, v) = true)
    (hm : m.all p = true) : (cellInsert m a v).all p = true := by
  induction m with
  | nil => simpa [cellInsert] using h
  | cons e rest ih =>
    obtain ⟨x, u⟩ := e
    simp only [List.all_cons, Bool.and_eq_true] at hm
    unfold cellInsert
    split_ifs <;> simp [h, hm.1, hm.2, ih hm.2]

theorem all_cellErase (p : Nat × α → Bool) (m : List (Nat × α)) (a : Nat) (hm : m.all p = true) :
    (cellErase m a).all p = true := by
  induction m with
  | nil => rfl
  | cons e rest ih =>
    simp only [List.all_cons, Bool.and_eq_true] at hm
    unfold cellErase
    split_ifs
    · exact ih hm.2
    · simp [hm.1, ih hm.2]

end Cells

/-- A general purpose register returns the last value written, and a write leaves every other one alone (R67). -/
theorem gprRead_gprWrite (m : Memory) (i j : Nat) (v : Byte) :
    gprRead (gprWrite m i v) j = if j = i then v else gprRead m j := by
  unfold gprRead gprWrite
  by_cases hv : v = gprUnlisted
  · rw [if_pos hv, cellRead_cellErase]; split_ifs <;> simp [hv]
  · rw [if_neg hv, cellRead_cellInsert]; split_ifs <;> rfl

@[simp] theorem gprRead_gprWrite_self (m : Memory) (i : Nat) (v : Byte) : gprRead (gprWrite m i v) i = v := by
  simp [gprRead_gprWrite]

theorem gprRead_gprWrite_ne (m : Memory) {i j : Nat} (v : Byte) (h : j ≠ i) :
    gprRead (gprWrite m i v) j = gprRead m j := by
  simp [gprRead_gprWrite, h]

/-- Every write keeps the canonical form of the general purpose registers. -/
theorem gprWrite_wf (m : Memory) (i : Nat) (v : Byte) (h : Memory.wf m = true) :
    Memory.wf (gprWrite m i v) = true := by
  simp only [Memory.wf, Bool.and_eq_true] at h ⊢
  unfold gprWrite
  split_ifs with hv
  · exact ⟨risingFrom_cellErase m h.1, all_cellErase _ m i h.2⟩
  · exact ⟨risingFrom_cellInsert m v (Nat.zero_le _) h.1, all_cellInsert _ m i v (by simp [hv]) h.2⟩

/-- The word just loaded is fetched, and every other word is as before. -/
theorem progRead_progStore (p : Program) (a b : ProgAddr) (w : InstrWord) :
    progRead (progStore p a w) b = if b = a then some w else progRead p b := by
  unfold progRead progStore
  rw [cellRead_cellInsert]
  simp only [BitVec.toNat_inj]

/-- Loading a word keeps the program's canonical form. -/
theorem progStore_wf (p : Program) (a : ProgAddr) (w : InstrWord) (h : Program.wf p = true) :
    Program.wf (progStore p a w) = true := by
  simp only [Program.wf, Bool.and_eq_true] at h ⊢
  have ha : a.toNat < 0x2000 := a.isLt
  exact ⟨risingFrom_cellInsert p w (Nat.zero_le _) h.1, all_cellInsert _ p a.toNat w (by simpa using ha) h.2⟩

end Sys2Proof.Machine
end

