-- ==== Sys2Proof/Laws/State.lean ====
section
/-! SUPPORT. One lemma per field per named update of the state, each true by unfolding, so that no later proof
unfolds a record update. -/

namespace Sys2Proof.Machine

section

variable (s : State) (n : Nat)

@[simp] theorem tick_cfg : (tick n s).cfg = s.cfg := rfl
@[simp] theorem tick_pc : (tick n s).pc = s.pc := rfl
@[simp] theorem tick_w : (tick n s).w = s.w := rfl
@[simp] theorem tick_c : (tick n s).c = s.c := rfl
@[simp] theorem tick_dc : (tick n s).dc = s.dc := rfl
@[simp] theorem tick_z : (tick n s).z = s.z := rfl
@[simp] theorem tick_pdBit : (tick n s).pdBit = s.pdBit := rfl
@[simp] theorem tick_toBit : (tick n s).toBit = s.toBit := rfl
@[simp] theorem tick_rp0 : (tick n s).rp0 = s.rp0 := rfl
@[simp] theorem tick_rp1 : (tick n s).rp1 = s.rp1 := rfl
@[simp] theorem tick_irp : (tick n s).irp = s.irp := rfl
@[simp] theorem tick_pclath : (tick n s).pclath = s.pclath := rfl
@[simp] theorem tick_fsr : (tick n s).fsr = s.fsr := rfl
@[simp] theorem tick_intcon : (tick n s).intcon = s.intcon := rfl
@[simp] theorem tick_eeif : (tick n s).eeif = s.eeif := rfl
@[simp] theorem tick_optionReg : (tick n s).optionReg = s.optionReg := rfl
@[simp] theorem tick_portA : (tick n s).portA = s.portA := rfl
@[simp] theorem tick_portB : (tick n s).portB = s.portB := rfl
@[simp] theorem tick_portC : (tick n s).portC = s.portC := rfl
@[simp] theorem tick_portbLast : (tick n s).portbLast = s.portbLast := rfl
@[simp] theorem tick_tmr0 : (tick n s).tmr0 = s.tmr0 := rfl
@[simp] theorem tick_tmr0Inhibit : (tick n s).tmr0Inhibit = s.tmr0Inhibit := rfl
@[simp] theorem tick_timer0Due : (tick n s).timer0Due = s.timer0Due + n := rfl
@[simp] theorem tick_wdt : (tick n s).wdt = s.wdt := rfl
@[simp] theorem tick_wdtps : (tick n s).wdtps = s.wdtps := rfl
@[simp] theorem tick_wdtAge : (tick n s).wdtAge = s.wdtAge + n := rfl
@[simp] theorem tick_sleeping : (tick n s).sleeping = s.sleeping := rfl
@[simp] theorem tick_afterWake : (tick n s).afterWake = s.afterWake := rfl
@[simp] theorem tick_stack : (tick n s).stack = s.stack := rfl
@[simp] theorem tick_gpr : (tick n s).gpr = s.gpr := rfl
@[simp] theorem tick_prog : (tick n s).prog = s.prog := rfl
@[simp] theorem tick_cycles : (tick n s).cycles = s.cycles + n := rfl
@[simp] theorem tick_draws : (tick n s).draws = s.draws := rfl
@[simp] theorem tick_inputs : (tick n s).inputs = s.inputs := rfl

end

section

variable (s : State)

@[simp] theorem advance_cfg : (advance s).cfg = s.cfg := rfl
@[simp] theorem advance_pc : (advance s).pc = s.pc + 1 := rfl
@[simp] theorem advance_w : (advance s).w = s.w := rfl
@[simp] theorem advance_c : (advance s).c = s.c := rfl
@[simp] theorem advance_dc : (advance s).dc = s.dc := rfl
@[simp] theorem advance_z : (advance s).z = s.z := rfl
@[simp] theorem advance_pdBit : (advance s).pdBit = s.pdBit := rfl
@[simp] theorem advance_toBit : (advance s).toBit = s.toBit := rfl
@[simp] theorem advance_rp0 : (advance s).rp0 = s.rp0 := rfl
@[simp] theorem advance_rp1 : (advance s).rp1 = s.rp1 := rfl
@[simp] theorem advance_irp : (advance s).irp = s.irp := rfl
@[simp] theorem advance_pclath : (advance s).pclath = s.pclath := rfl
@[simp] theorem advance_fsr : (advance s).fsr = s.fsr := rfl
@[simp] theorem advance_intcon : (advance s).intcon = s.intcon := rfl
@[simp] theorem advance_eeif : (advance s).eeif = s.eeif := rfl
@[simp] theorem advance_optionReg : (advance s).optionReg = s.optionReg := rfl
@[simp] theorem advance_portA : (advance s).portA = s.portA := rfl
@[simp] theorem advance_portB : (advance s).portB = s.portB := rfl
@[simp] theorem advance_portC : (advance s).portC = s.portC := rfl
@[simp] theorem advance_portbLast : (advance s).portbLast = s.portbLast := rfl
@[simp] theorem advance_tmr0 : (advance s).tmr0 = s.tmr0 := rfl
@[simp] theorem advance_tmr0Inhibit : (advance s).tmr0Inhibit = s.tmr0Inhibit := rfl
@[simp] theorem advance_timer0Due : (advance s).timer0Due = s.timer0Due + 1 := rfl
@[simp] theorem advance_wdt : (advance s).wdt = s.wdt := rfl
@[simp] theorem advance_wdtps : (advance s).wdtps = s.wdtps := rfl
@[simp] theorem advance_wdtAge : (advance s).wdtAge = s.wdtAge + 1 := rfl
@[simp] theorem advance_sleeping : (advance s).sleeping = s.sleeping := rfl
@[simp] theorem advance_afterWake : (advance s).afterWake = s.afterWake := rfl
@[simp] theorem advance_stack : (advance s).stack = s.stack := rfl
@[simp] theorem advance_gpr : (advance s).gpr = s.gpr := rfl
@[simp] theorem advance_prog : (advance s).prog = s.prog := rfl
@[simp] theorem advance_cycles : (advance s).cycles = s.cycles + 1 := rfl
@[simp] theorem advance_draws : (advance s).draws = s.draws := rfl
@[simp] theorem advance_inputs : (advance s).inputs = s.inputs := rfl

end

section

variable (s : State) (a : ProgAddr)

@[simp] theorem jump_cfg : (jump a s).cfg = s.cfg := rfl
@[simp] theorem jump_pc : (jump a s).pc = a := rfl
@[simp] theorem jump_w : (jump a s).w = s.w := rfl
@[simp] theorem jump_c : (jump a s).c = s.c := rfl
@[simp] theorem jump_dc : (jump a s).dc = s.dc := rfl
@[simp] theorem jump_z : (jump a s).z = s.z := rfl
@[simp] theorem jump_pdBit : (jump a s).pdBit = s.pdBit := rfl
@[simp] theorem jump_toBit : (jump a s).toBit = s.toBit := rfl
@[simp] theorem jump_rp0 : (jump a s).rp0 = s.rp0 := rfl
@[simp] theorem jump_rp1 : (jump a s).rp1 = s.rp1 := rfl
@[simp] theorem jump_irp : (jump a s).irp = s.irp := rfl
@[simp] theorem jump_pclath : (jump a s).pclath = s.pclath := rfl
@[simp] theorem jump_fsr : (jump a s).fsr = s.fsr := rfl
@[simp] theorem jump_intcon : (jump a s).intcon = s.intcon := rfl
@[simp] theorem jump_eeif : (jump a s).eeif = s.eeif := rfl
@[simp] theorem jump_optionReg : (jump a s).optionReg = s.optionReg := rfl
@[simp] theorem jump_portA : (jump a s).portA = s.portA := rfl
@[simp] theorem jump_portB : (jump a s).portB = s.portB := rfl
@[simp] theorem jump_portC : (jump a s).portC = s.portC := rfl
@[simp] theorem jump_portbLast : (jump a s).portbLast = s.portbLast := rfl
@[simp] theorem jump_tmr0 : (jump a s).tmr0 = s.tmr0 := rfl
@[simp] theorem jump_tmr0Inhibit : (jump a s).tmr0Inhibit = s.tmr0Inhibit := rfl
@[simp] theorem jump_timer0Due : (jump a s).timer0Due = s.timer0Due + 1 := rfl
@[simp] theorem jump_wdt : (jump a s).wdt = s.wdt := rfl
@[simp] theorem jump_wdtps : (jump a s).wdtps = s.wdtps := rfl
@[simp] theorem jump_wdtAge : (jump a s).wdtAge = s.wdtAge + 1 := rfl
@[simp] theorem jump_sleeping : (jump a s).sleeping = s.sleeping := rfl
@[simp] theorem jump_afterWake : (jump a s).afterWake = s.afterWake := rfl
@[simp] theorem jump_stack : (jump a s).stack = s.stack := rfl
@[simp] theorem jump_gpr : (jump a s).gpr = s.gpr := rfl
@[simp] theorem jump_prog : (jump a s).prog = s.prog := rfl
@[simp] theorem jump_cycles : (jump a s).cycles = s.cycles + 1 := rfl
@[simp] theorem jump_draws : (jump a s).draws = s.draws := rfl
@[simp] theorem jump_inputs : (jump a s).inputs = s.inputs := rfl

end

section

variable (s : State)

@[simp] theorem skipNext_cfg : (skipNext s).cfg = s.cfg := rfl
@[simp] theorem skipNext_pc : (skipNext s).pc = s.pc + 1 := rfl
@[simp] theorem skipNext_w : (skipNext s).w = s.w := rfl
@[simp] theorem skipNext_c : (skipNext s).c = s.c := rfl
@[simp] theorem skipNext_dc : (skipNext s).dc = s.dc := rfl
@[simp] theorem skipNext_z : (skipNext s).z = s.z := rfl
@[simp] theorem skipNext_pdBit : (skipNext s).pdBit = s.pdBit := rfl
@[simp] theorem skipNext_toBit : (skipNext s).toBit = s.toBit := rfl
@[simp] theorem skipNext_rp0 : (skipNext s).rp0 = s.rp0 := rfl
@[simp] theorem skipNext_rp1 : (skipNext s).rp1 = s.rp1 := rfl
@[simp] theorem skipNext_irp : (skipNext s).irp = s.irp := rfl
@[simp] theorem skipNext_pclath : (skipNext s).pclath = s.pclath := rfl
@[simp] theorem skipNext_fsr : (skipNext s).fsr = s.fsr := rfl
@[simp] theorem skipNext_intcon : (skipNext s).intcon = s.intcon := rfl
@[simp] theorem skipNext_eeif : (skipNext s).eeif = s.eeif := rfl
@[simp] theorem skipNext_optionReg : (skipNext s).optionReg = s.optionReg := rfl
@[simp] theorem skipNext_portA : (skipNext s).portA = s.portA := rfl
@[simp] theorem skipNext_portB : (skipNext s).portB = s.portB := rfl
@[simp] theorem skipNext_portC : (skipNext s).portC = s.portC := rfl
@[simp] theorem skipNext_portbLast : (skipNext s).portbLast = s.portbLast := rfl
@[simp] theorem skipNext_tmr0 : (skipNext s).tmr0 = s.tmr0 := rfl
@[simp] theorem skipNext_tmr0Inhibit : (skipNext s).tmr0Inhibit = s.tmr0Inhibit := rfl
@[simp] theorem skipNext_timer0Due : (skipNext s).timer0Due = s.timer0Due + 1 := rfl
@[simp] theorem skipNext_wdt : (skipNext s).wdt = s.wdt := rfl
@[simp] theorem skipNext_wdtps : (skipNext s).wdtps = s.wdtps := rfl
@[simp] theorem skipNext_wdtAge : (skipNext s).wdtAge = s.wdtAge + 1 := rfl
@[simp] theorem skipNext_sleeping : (skipNext s).sleeping = s.sleeping := rfl
@[simp] theorem skipNext_afterWake : (skipNext s).afterWake = s.afterWake := rfl
@[simp] theorem skipNext_stack : (skipNext s).stack = s.stack := rfl
@[simp] theorem skipNext_gpr : (skipNext s).gpr = s.gpr := rfl
@[simp] theorem skipNext_prog : (skipNext s).prog = s.prog := rfl
@[simp] theorem skipNext_cycles : (skipNext s).cycles = s.cycles + 1 := rfl
@[simp] theorem skipNext_draws : (skipNext s).draws = s.draws := rfl
@[simp] theorem skipNext_inputs : (skipNext s).inputs = s.inputs := rfl

end

section

variable (s : State) (v : Byte)

@[simp] theorem setW_cfg : (setW v s).cfg = s.cfg := rfl
@[simp] theorem setW_pc : (setW v s).pc = s.pc := rfl
@[simp] theorem setW_w : (setW v s).w = v := rfl
@[simp] theorem setW_c : (setW v s).c = s.c := rfl
@[simp] theorem setW_dc : (setW v s).dc = s.dc := rfl
@[simp] theorem setW_z : (setW v s).z = s.z := rfl
@[simp] theorem setW_pdBit : (setW v s).pdBit = s.pdBit := rfl
@[simp] theorem setW_toBit : (setW v s).toBit = s.toBit := rfl
@[simp] theorem setW_rp0 : (setW v s).rp0 = s.rp0 := rfl
@[simp] theorem setW_rp1 : (setW v s).rp1 = s.rp1 := rfl
@[simp] theorem setW_irp : (setW v s).irp = s.irp := rfl
@[simp] theorem setW_pclath : (setW v s).pclath = s.pclath := rfl
@[simp] theorem setW_fsr : (setW v s).fsr = s.fsr := rfl
@[simp] theorem setW_intcon : (setW v s).intcon = s.intcon := rfl
@[simp] theorem setW_eeif : (setW v s).eeif = s.eeif := rfl
@[simp] theorem setW_optionReg : (setW v s).optionReg = s.optionReg := rfl
@[simp] theorem setW_portA : (setW v s).portA = s.portA := rfl
@[simp] theorem setW_portB : (setW v s).portB = s.portB := rfl
@[simp] theorem setW_portC : (setW v s).portC = s.portC := rfl
@[simp] theorem setW_portbLast : (setW v s).portbLast = s.portbLast := rfl
@[simp] theorem setW_tmr0 : (setW v s).tmr0 = s.tmr0 := rfl
@[simp] theorem setW_tmr0Inhibit : (setW v s).tmr0Inhibit = s.tmr0Inhibit := rfl
@[simp] theorem setW_timer0Due : (setW v s).timer0Due = s.timer0Due := rfl
@[simp] theorem setW_wdt : (setW v s).wdt = s.wdt := rfl
@[simp] theorem setW_wdtps : (setW v s).wdtps = s.wdtps := rfl
@[simp] theorem setW_wdtAge : (setW v s).wdtAge = s.wdtAge := rfl
@[simp] theorem setW_sleeping : (setW v s).sleeping = s.sleeping := rfl
@[simp] theorem setW_afterWake : (setW v s).afterWake = s.afterWake := rfl
@[simp] theorem setW_stack : (setW v s).stack = s.stack := rfl
@[simp] theorem setW_gpr : (setW v s).gpr = s.gpr := rfl
@[simp] theorem setW_prog : (setW v s).prog = s.prog := rfl
@[simp] theorem setW_cycles : (setW v s).cycles = s.cycles := rfl
@[simp] theorem setW_draws : (setW v s).draws = s.draws := rfl
@[simp] theorem setW_inputs : (setW v s).inputs = s.inputs := rfl

end

section

variable (s : State) (u : FlagUpdate)

@[simp] theorem setFlags_cfg : (setFlags u s).cfg = s.cfg := rfl
@[simp] theorem setFlags_pc : (setFlags u s).pc = s.pc := rfl
@[simp] theorem setFlags_w : (setFlags u s).w = s.w := rfl
@[simp] theorem setFlags_c : (setFlags u s).c = u.c.getD s.c := rfl
@[simp] theorem setFlags_dc : (setFlags u s).dc = u.dc.getD s.dc := rfl
@[simp] theorem setFlags_z : (setFlags u s).z = u.z.getD s.z := rfl
@[simp] theorem setFlags_pdBit : (setFlags u s).pdBit = s.pdBit := rfl
@[simp] theorem setFlags_toBit : (setFlags u s).toBit = s.toBit := rfl
@[simp] theorem setFlags_rp0 : (setFlags u s).rp0 = s.rp0 := rfl
@[simp] theorem setFlags_rp1 : (setFlags u s).rp1 = s.rp1 := rfl
@[simp] theorem setFlags_irp : (setFlags u s).irp = s.irp := rfl
@[simp] theorem setFlags_pclath : (setFlags u s).pclath = s.pclath := rfl
@[simp] theorem setFlags_fsr : (setFlags u s).fsr = s.fsr := rfl
@[simp] theorem setFlags_intcon : (setFlags u s).intcon = s.intcon := rfl
@[simp] theorem setFlags_eeif : (setFlags u s).eeif = s.eeif := rfl
@[simp] theorem setFlags_optionReg : (setFlags u s).optionReg = s.optionReg := rfl
@[simp] theorem setFlags_portA : (setFlags u s).portA = s.portA := rfl
@[simp] theorem setFlags_portB : (setFlags u s).portB = s.portB := rfl
@[simp] theorem setFlags_portC : (setFlags u s).portC = s.portC := rfl
@[simp] theorem setFlags_portbLast : (setFlags u s).portbLast = s.portbLast := rfl
@[simp] theorem setFlags_tmr0 : (setFlags u s).tmr0 = s.tmr0 := rfl
@[simp] theorem setFlags_tmr0Inhibit : (setFlags u s).tmr0Inhibit = s.tmr0Inhibit := rfl
@[simp] theorem setFlags_timer0Due : (setFlags u s).timer0Due = s.timer0Due := rfl
@[simp] theorem setFlags_wdt : (setFlags u s).wdt = s.wdt := rfl
@[simp] theorem setFlags_wdtps : (setFlags u s).wdtps = s.wdtps := rfl
@[simp] theorem setFlags_wdtAge : (setFlags u s).wdtAge = s.wdtAge := rfl
@[simp] theorem setFlags_sleeping : (setFlags u s).sleeping = s.sleeping := rfl
@[simp] theorem setFlags_afterWake : (setFlags u s).afterWake = s.afterWake := rfl
@[simp] theorem setFlags_stack : (setFlags u s).stack = s.stack := rfl
@[simp] theorem setFlags_gpr : (setFlags u s).gpr = s.gpr := rfl
@[simp] theorem setFlags_prog : (setFlags u s).prog = s.prog := rfl
@[simp] theorem setFlags_cycles : (setFlags u s).cycles = s.cycles := rfl
@[simp] theorem setFlags_draws : (setFlags u s).draws = s.draws := rfl
@[simp] theorem setFlags_inputs : (setFlags u s).inputs = s.inputs := rfl

end

section

variable (s : State) (b : Bool)

@[simp] theorem setGie_cfg : (setGie b s).cfg = s.cfg := rfl
@[simp] theorem setGie_pc : (setGie b s).pc = s.pc := rfl
@[simp] theorem setGie_w : (setGie b s).w = s.w := rfl
@[simp] theorem setGie_c : (setGie b s).c = s.c := rfl
@[simp] theorem setGie_dc : (setGie b s).dc = s.dc := rfl
@[simp] theorem setGie_z : (setGie b s).z = s.z := rfl
@[simp] theorem setGie_pdBit : (setGie b s).pdBit = s.pdBit := rfl
@[simp] theorem setGie_toBit : (setGie b s).toBit = s.toBit := rfl
@[simp] theorem setGie_rp0 : (setGie b s).rp0 = s.rp0 := rfl
@[simp] theorem setGie_rp1 : (setGie b s).rp1 = s.rp1 := rfl
@[simp] theorem setGie_irp : (setGie b s).irp = s.irp := rfl
@[simp] theorem setGie_pclath : (setGie b s).pclath = s.pclath := rfl
@[simp] theorem setGie_fsr : (setGie b s).fsr = s.fsr := rfl
@[simp] theorem setGie_intcon : (setGie b s).intcon = if b then s.intcon ||| 0x80 else s.intcon &&& 0x7F := rfl
@[simp] theorem setGie_eeif : (setGie b s).eeif = s.eeif := rfl
@[simp] theorem setGie_optionReg : (setGie b s).optionReg = s.optionReg := rfl
@[simp] theorem setGie_portA : (setGie b s).portA = s.portA := rfl
@[simp] theorem setGie_portB : (setGie b s).portB = s.portB := rfl
@[simp] theorem setGie_portC : (setGie b s).portC = s.portC := rfl
@[simp] theorem setGie_portbLast : (setGie b s).portbLast = s.portbLast := rfl
@[simp] theorem setGie_tmr0 : (setGie b s).tmr0 = s.tmr0 := rfl
@[simp] theorem setGie_tmr0Inhibit : (setGie b s).tmr0Inhibit = s.tmr0Inhibit := rfl
@[simp] theorem setGie_timer0Due : (setGie b s).timer0Due = s.timer0Due := rfl
@[simp] theorem setGie_wdt : (setGie b s).wdt = s.wdt := rfl
@[simp] theorem setGie_wdtps : (setGie b s).wdtps = s.wdtps := rfl
@[simp] theorem setGie_wdtAge : (setGie b s).wdtAge = s.wdtAge := rfl
@[simp] theorem setGie_sleeping : (setGie b s).sleeping = s.sleeping := rfl
@[simp] theorem setGie_afterWake : (setGie b s).afterWake = s.afterWake := rfl
@[simp] theorem setGie_stack : (setGie b s).stack = s.stack := rfl
@[simp] theorem setGie_gpr : (setGie b s).gpr = s.gpr := rfl
@[simp] theorem setGie_prog : (setGie b s).prog = s.prog := rfl
@[simp] theorem setGie_cycles : (setGie b s).cycles = s.cycles := rfl
@[simp] theorem setGie_draws : (setGie b s).draws = s.draws := rfl
@[simp] theorem setGie_inputs : (setGie b s).inputs = s.inputs := rfl

end

section

variable (s : State) (v : Byte)

@[simp] theorem setOption_cfg : (setOption v s).cfg = s.cfg := rfl
@[simp] theorem setOption_pc : (setOption v s).pc = s.pc := rfl
@[simp] theorem setOption_w : (setOption v s).w = s.w := rfl
@[simp] theorem setOption_c : (setOption v s).c = s.c := rfl
@[simp] theorem setOption_dc : (setOption v s).dc = s.dc := rfl
@[simp] theorem setOption_z : (setOption v s).z = s.z := rfl
@[simp] theorem setOption_pdBit : (setOption v s).pdBit = s.pdBit := rfl
@[simp] theorem setOption_toBit : (setOption v s).toBit = s.toBit := rfl
@[simp] theorem setOption_rp0 : (setOption v s).rp0 = s.rp0 := rfl
@[simp] theorem setOption_rp1 : (setOption v s).rp1 = s.rp1 := rfl
@[simp] theorem setOption_irp : (setOption v s).irp = s.irp := rfl
@[simp] theorem setOption_pclath : (setOption v s).pclath = s.pclath := rfl
@[simp] theorem setOption_fsr : (setOption v s).fsr = s.fsr := rfl
@[simp] theorem setOption_intcon : (setOption v s).intcon = s.intcon := rfl
@[simp] theorem setOption_eeif : (setOption v s).eeif = s.eeif := rfl
@[simp] theorem setOption_optionReg : (setOption v s).optionReg = v := rfl
@[simp] theorem setOption_portA : (setOption v s).portA = s.portA := rfl
@[simp] theorem setOption_portB : (setOption v s).portB = s.portB := rfl
@[simp] theorem setOption_portC : (setOption v s).portC = s.portC := rfl
@[simp] theorem setOption_portbLast : (setOption v s).portbLast = s.portbLast := rfl
@[simp] theorem setOption_tmr0 : (setOption v s).tmr0 = s.tmr0 := rfl
@[simp] theorem setOption_tmr0Inhibit : (setOption v s).tmr0Inhibit = s.tmr0Inhibit := rfl
@[simp] theorem setOption_timer0Due : (setOption v s).timer0Due = s.timer0Due := rfl
@[simp] theorem setOption_wdt : (setOption v s).wdt = s.wdt := rfl
@[simp] theorem setOption_wdtps : (setOption v s).wdtps =
    if psaToWdt v = psaToWdt s.optionReg then s.wdtps else Config.freeByte s.draws := rfl
@[simp] theorem setOption_wdtAge : (setOption v s).wdtAge = s.wdtAge := rfl
@[simp] theorem setOption_sleeping : (setOption v s).sleeping = s.sleeping := rfl
@[simp] theorem setOption_afterWake : (setOption v s).afterWake = s.afterWake := rfl
@[simp] theorem setOption_stack : (setOption v s).stack = s.stack := rfl
@[simp] theorem setOption_gpr : (setOption v s).gpr = s.gpr := rfl
@[simp] theorem setOption_prog : (setOption v s).prog = s.prog := rfl
@[simp] theorem setOption_cycles : (setOption v s).cycles = s.cycles := rfl
@[simp] theorem setOption_draws : (setOption v s).draws =
    if psaToWdt v = psaToWdt s.optionReg then s.draws else s.draws + 1 := rfl
@[simp] theorem setOption_inputs : (setOption v s).inputs = s.inputs := rfl

end

section

variable (s : State) (v : Byte)

@[simp] theorem writeTmr0_cfg : (writeTmr0 v s).cfg = s.cfg := rfl
@[simp] theorem writeTmr0_pc : (writeTmr0 v s).pc = s.pc := rfl
@[simp] theorem writeTmr0_w : (writeTmr0 v s).w = s.w := rfl
@[simp] theorem writeTmr0_c : (writeTmr0 v s).c = s.c := rfl
@[simp] theorem writeTmr0_dc : (writeTmr0 v s).dc = s.dc := rfl
@[simp] theorem writeTmr0_z : (writeTmr0 v s).z = s.z := rfl
@[simp] theorem writeTmr0_pdBit : (writeTmr0 v s).pdBit = s.pdBit := rfl
@[simp] theorem writeTmr0_toBit : (writeTmr0 v s).toBit = s.toBit := rfl
@[simp] theorem writeTmr0_rp0 : (writeTmr0 v s).rp0 = s.rp0 := rfl
@[simp] theorem writeTmr0_rp1 : (writeTmr0 v s).rp1 = s.rp1 := rfl
@[simp] theorem writeTmr0_irp : (writeTmr0 v s).irp = s.irp := rfl
@[simp] theorem writeTmr0_pclath : (writeTmr0 v s).pclath = s.pclath := rfl
@[simp] theorem writeTmr0_fsr : (writeTmr0 v s).fsr = s.fsr := rfl
@[simp] theorem writeTmr0_intcon : (writeTmr0 v s).intcon = s.intcon := rfl
@[simp] theorem writeTmr0_eeif : (writeTmr0 v s).eeif = s.eeif := rfl
@[simp] theorem writeTmr0_optionReg : (writeTmr0 v s).optionReg = s.optionReg := rfl
@[simp] theorem writeTmr0_portA : (writeTmr0 v s).portA = s.portA := rfl
@[simp] theorem writeTmr0_portB : (writeTmr0 v s).portB = s.portB := rfl
@[simp] theorem writeTmr0_portC : (writeTmr0 v s).portC = s.portC := rfl
@[simp] theorem writeTmr0_portbLast : (writeTmr0 v s).portbLast = s.portbLast := rfl
@[simp] theorem writeTmr0_tmr0 : (writeTmr0 v s).tmr0 = v := rfl
@[simp] theorem writeTmr0_tmr0Inhibit : (writeTmr0 v s).tmr0Inhibit = 2 := rfl
@[simp] theorem writeTmr0_timer0Due : (writeTmr0 v s).timer0Due = 0 := rfl
@[simp] theorem writeTmr0_wdt : (writeTmr0 v s).wdt = s.wdt := rfl
@[simp] theorem writeTmr0_wdtps : (writeTmr0 v s).wdtps = if psaToWdt s.optionReg then s.wdtps else 0 := rfl
@[simp] theorem writeTmr0_wdtAge : (writeTmr0 v s).wdtAge = s.wdtAge := rfl
@[simp] theorem writeTmr0_sleeping : (writeTmr0 v s).sleeping = s.sleeping := rfl
@[simp] theorem writeTmr0_afterWake : (writeTmr0 v s).afterWake = s.afterWake := rfl
@[simp] theorem writeTmr0_stack : (writeTmr0 v s).stack = s.stack := rfl
@[simp] theorem writeTmr0_gpr : (writeTmr0 v s).gpr = s.gpr := rfl
@[simp] theorem writeTmr0_prog : (writeTmr0 v s).prog = s.prog := rfl
@[simp] theorem writeTmr0_cycles : (writeTmr0 v s).cycles = s.cycles := rfl
@[simp] theorem writeTmr0_draws : (writeTmr0 v s).draws = s.draws := rfl
@[simp] theorem writeTmr0_inputs : (writeTmr0 v s).inputs = s.inputs := rfl

end

section

variable (s : State)

@[simp] theorem clearWatchdog_cfg : (clearWatchdog s).cfg = s.cfg := rfl
@[simp] theorem clearWatchdog_pc : (clearWatchdog s).pc = s.pc := rfl
@[simp] theorem clearWatchdog_w : (clearWatchdog s).w = s.w := rfl
@[simp] theorem clearWatchdog_c : (clearWatchdog s).c = s.c := rfl
@[simp] theorem clearWatchdog_dc : (clearWatchdog s).dc = s.dc := rfl
@[simp] theorem clearWatchdog_z : (clearWatchdog s).z = s.z := rfl
@[simp] theorem clearWatchdog_pdBit : (clearWatchdog s).pdBit = s.pdBit := rfl
@[simp] theorem clearWatchdog_toBit : (clearWatchdog s).toBit = s.toBit := rfl
@[simp] theorem clearWatchdog_rp0 : (clearWatchdog s).rp0 = s.rp0 := rfl
@[simp] theorem clearWatchdog_rp1 : (clearWatchdog s).rp1 = s.rp1 := rfl
@[simp] theorem clearWatchdog_irp : (clearWatchdog s).irp = s.irp := rfl
@[simp] theorem clearWatchdog_pclath : (clearWatchdog s).pclath = s.pclath := rfl
@[simp] theorem clearWatchdog_fsr : (clearWatchdog s).fsr = s.fsr := rfl
@[simp] theorem clearWatchdog_intcon : (clearWatchdog s).intcon = s.intcon := rfl
@[simp] theorem clearWatchdog_eeif : (clearWatchdog s).eeif = s.eeif := rfl
@[simp] theorem clearWatchdog_optionReg : (clearWatchdog s).optionReg = s.optionReg := rfl
@[simp] theorem clearWatchdog_portA : (clearWatchdog s).portA = s.portA := rfl
@[simp] theorem clearWatchdog_portB : (clearWatchdog s).portB = s.portB := rfl
@[simp] theorem clearWatchdog_portC : (clearWatchdog s).portC = s.portC := rfl
@[simp] theorem clearWatchdog_portbLast : (clearWatchdog s).portbLast = s.portbLast := rfl
@[simp] theorem clearWatchdog_tmr0 : (clearWatchdog s).tmr0 = s.tmr0 := rfl
@[simp] theorem clearWatchdog_tmr0Inhibit : (clearWatchdog s).tmr0Inhibit = s.tmr0Inhibit := rfl
@[simp] theorem clearWatchdog_timer0Due : (clearWatchdog s).timer0Due = s.timer0Due := rfl
@[simp] theorem clearWatchdog_wdt : (clearWatchdog s).wdt = 0 := rfl
@[simp] theorem clearWatchdog_wdtps : (clearWatchdog s).wdtps = if psaToWdt s.optionReg then 0 else s.wdtps := rfl
@[simp] theorem clearWatchdog_wdtAge : (clearWatchdog s).wdtAge = 0 := rfl
@[simp] theorem clearWatchdog_sleeping : (clearWatchdog s).sleeping = s.sleeping := rfl
@[simp] theorem clearWatchdog_afterWake : (clearWatchdog s).afterWake = s.afterWake := rfl
@[simp] theorem clearWatchdog_stack : (clearWatchdog s).stack = s.stack := rfl
@[simp] theorem clearWatchdog_gpr : (clearWatchdog s).gpr = s.gpr := rfl
@[simp] theorem clearWatchdog_prog : (clearWatchdog s).prog = s.prog := rfl
@[simp] theorem clearWatchdog_cycles : (clearWatchdog s).cycles = s.cycles := rfl
@[simp] theorem clearWatchdog_draws : (clearWatchdog s).draws = s.draws := rfl
@[simp] theorem clearWatchdog_inputs : (clearWatchdog s).inputs = s.inputs := rfl

end

section

variable (s : State) (p : PortId) (q : Port)

@[simp] theorem setPort_cfg : (setPort p q s).cfg = s.cfg := rfl
@[simp] theorem setPort_pc : (setPort p q s).pc = s.pc := rfl
@[simp] theorem setPort_w : (setPort p q s).w = s.w := rfl
@[simp] theorem setPort_c : (setPort p q s).c = s.c := rfl
@[simp] theorem setPort_dc : (setPort p q s).dc = s.dc := rfl
@[simp] theorem setPort_z : (setPort p q s).z = s.z := rfl
@[simp] theorem setPort_pdBit : (setPort p q s).pdBit = s.pdBit := rfl
@[simp] theorem setPort_toBit : (setPort p q s).toBit = s.toBit := rfl
@[simp] theorem setPort_rp0 : (setPort p q s).rp0 = s.rp0 := rfl
@[simp] theorem setPort_rp1 : (setPort p q s).rp1 = s.rp1 := rfl
@[simp] theorem setPort_irp : (setPort p q s).irp = s.irp := rfl
@[simp] theorem setPort_pclath : (setPort p q s).pclath = s.pclath := rfl
@[simp] theorem setPort_fsr : (setPort p q s).fsr = s.fsr := rfl
@[simp] theorem setPort_intcon : (setPort p q s).intcon = s.intcon := rfl
@[simp] theorem setPort_eeif : (setPort p q s).eeif = s.eeif := rfl
@[simp] theorem setPort_optionReg : (setPort p q s).optionReg = s.optionReg := rfl
@[simp] theorem setPort_portA : (setPort p q s).portA = if p = .a then q else s.portA := rfl
@[simp] theorem setPort_portB : (setPort p q s).portB = if p = .b then q else s.portB := rfl
@[simp] theorem setPort_portC : (setPort p q s).portC = if p = .c then q else s.portC := rfl
@[simp] theorem setPort_portbLast : (setPort p q s).portbLast = s.portbLast := rfl
@[simp] theorem setPort_tmr0 : (setPort p q s).tmr0 = s.tmr0 := rfl
@[simp] theorem setPort_tmr0Inhibit : (setPort p q s).tmr0Inhibit = s.tmr0Inhibit := rfl
@[simp] theorem setPort_timer0Due : (setPort p q s).timer0Due = s.timer0Due := rfl
@[simp] theorem setPort_wdt : (setPort p q s).wdt = s.wdt := rfl
@[simp] theorem setPort_wdtps : (setPort p q s).wdtps = s.wdtps := rfl
@[simp] theorem setPort_wdtAge : (setPort p q s).wdtAge = s.wdtAge := rfl
@[simp] theorem setPort_sleeping : (setPort p q s).sleeping = s.sleeping := rfl
@[simp] theorem setPort_afterWake : (setPort p q s).afterWake = s.afterWake := rfl
@[simp] theorem setPort_stack : (setPort p q s).stack = s.stack := rfl
@[simp] theorem setPort_gpr : (setPort p q s).gpr = s.gpr := rfl
@[simp] theorem setPort_prog : (setPort p q s).prog = s.prog := rfl
@[simp] theorem setPort_cycles : (setPort p q s).cycles = s.cycles := rfl
@[simp] theorem setPort_draws : (setPort p q s).draws = s.draws := rfl
@[simp] theorem setPort_inputs : (setPort p q s).inputs = s.inputs := rfl

end

section

variable (s : State) (v : Byte) (a : Bool)

@[simp] theorem writeStatus_cfg : (writeStatus v a s).cfg = s.cfg := rfl
@[simp] theorem writeStatus_pc : (writeStatus v a s).pc = s.pc := rfl
@[simp] theorem writeStatus_w : (writeStatus v a s).w = s.w := rfl
@[simp] theorem writeStatus_c : (writeStatus v a s).c = if a then s.c else v.getLsbD s.cfg.statusLayout.c := rfl
@[simp] theorem writeStatus_dc : (writeStatus v a s).dc = if a then s.dc else v.getLsbD s.cfg.statusLayout.dc := rfl
@[simp] theorem writeStatus_z : (writeStatus v a s).z = if a then s.z else v.getLsbD s.cfg.statusLayout.z := rfl
@[simp] theorem writeStatus_pdBit : (writeStatus v a s).pdBit = s.pdBit := rfl
@[simp] theorem writeStatus_toBit : (writeStatus v a s).toBit = s.toBit := rfl
@[simp] theorem writeStatus_rp0 : (writeStatus v a s).rp0 = v.getLsbD s.cfg.statusLayout.rp0 := rfl
@[simp] theorem writeStatus_rp1 : (writeStatus v a s).rp1 = v.getLsbD s.cfg.statusLayout.rp1 := rfl
@[simp] theorem writeStatus_irp : (writeStatus v a s).irp = v.getLsbD s.cfg.statusLayout.irp := rfl
@[simp] theorem writeStatus_pclath : (writeStatus v a s).pclath = s.pclath := rfl
@[simp] theorem writeStatus_fsr : (writeStatus v a s).fsr = s.fsr := rfl
@[simp] theorem writeStatus_intcon : (writeStatus v a s).intcon = s.intcon := rfl
@[simp] theorem writeStatus_eeif : (writeStatus v a s).eeif = s.eeif := rfl
@[simp] theorem writeStatus_optionReg : (writeStatus v a s).optionReg = s.optionReg := rfl
@[simp] theorem writeStatus_portA : (writeStatus v a s).portA = s.portA := rfl
@[simp] theorem writeStatus_portB : (writeStatus v a s).portB = s.portB := rfl
@[simp] theorem writeStatus_portC : (writeStatus v a s).portC = s.portC := rfl
@[simp] theorem writeStatus_portbLast : (writeStatus v a s).portbLast = s.portbLast := rfl
@[simp] theorem writeStatus_tmr0 : (writeStatus v a s).tmr0 = s.tmr0 := rfl
@[simp] theorem writeStatus_tmr0Inhibit : (writeStatus v a s).tmr0Inhibit = s.tmr0Inhibit := rfl
@[simp] theorem writeStatus_timer0Due : (writeStatus v a s).timer0Due = s.timer0Due := rfl
@[simp] theorem writeStatus_wdt : (writeStatus v a s).wdt = s.wdt := rfl
@[simp] theorem writeStatus_wdtps : (writeStatus v a s).wdtps = s.wdtps := rfl
@[simp] theorem writeStatus_wdtAge : (writeStatus v a s).wdtAge = s.wdtAge := rfl
@[simp] theorem writeStatus_sleeping : (writeStatus v a s).sleeping = s.sleeping := rfl
@[simp] theorem writeStatus_afterWake : (writeStatus v a s).afterWake = s.afterWake := rfl
@[simp] theorem writeStatus_stack : (writeStatus v a s).stack = s.stack := rfl
@[simp] theorem writeStatus_gpr : (writeStatus v a s).gpr = s.gpr := rfl
@[simp] theorem writeStatus_prog : (writeStatus v a s).prog = s.prog := rfl
@[simp] theorem writeStatus_cycles : (writeStatus v a s).cycles = s.cycles := rfl
@[simp] theorem writeStatus_draws : (writeStatus v a s).draws = s.draws := rfl
@[simp] theorem writeStatus_inputs : (writeStatus v a s).inputs = s.inputs := rfl

end

end Sys2Proof.Machine
end

