-- ==== Sys2Proof/Laws/Ops.lean ====
section
/-! SUPPORT. What reading and writing a register can change, what the stack operations and the entry of an
interrupt can answer, and the shapes of the file register instructions: one lemma per shared operation. -/

namespace Sys2Proof.Machine

/-! ## Reading a register leaves everything but the port's pins, PORTB's last value and the draws alone -/

section

variable (a : DataAddr) (s : State)

@[simp] theorem readEffect_cfg : (readEffect a s).cfg = s.cfg := by
  unfold readEffect; split <;> rfl
@[simp] theorem readEffect_pc : (readEffect a s).pc = s.pc := by
  unfold readEffect; split <;> rfl
@[simp] theorem readEffect_w : (readEffect a s).w = s.w := by
  unfold readEffect; split <;> rfl
@[simp] theorem readEffect_c : (readEffect a s).c = s.c := by
  unfold readEffect; split <;> rfl
@[simp] theorem readEffect_dc : (readEffect a s).dc = s.dc := by
  unfold readEffect; split <;> rfl
@[simp] theorem readEffect_z : (readEffect a s).z = s.z := by
  unfold readEffect; split <;> rfl
@[simp] theorem readEffect_pdBit : (readEffect a s).pdBit = s.pdBit := by
  unfold readEffect; split <;> rfl
@[simp] theorem readEffect_toBit : (readEffect a s).toBit = s.toBit := by
  unfold readEffect; split <;> rfl
@[simp] theorem readEffect_rp0 : (readEffect a s).rp0 = s.rp0 := by
  unfold readEffect; split <;> rfl
@[simp] theorem readEffect_rp1 : (readEffect a s).rp1 = s.rp1 := by
  unfold readEffect; split <;> rfl
@[simp] theorem readEffect_irp : (readEffect a s).irp = s.irp := by
  unfold readEffect; split <;> rfl
@[simp] theorem readEffect_pclath : (readEffect a s).pclath = s.pclath := by
  unfold readEffect; split <;> rfl
@[simp] theorem readEffect_fsr : (readEffect a s).fsr = s.fsr := by
  unfold readEffect; split <;> rfl
@[simp] theorem readEffect_intcon : (readEffect a s).intcon = s.intcon := by
  unfold readEffect; split <;> rfl
@[simp] theorem readEffect_eeif : (readEffect a s).eeif = s.eeif := by
  unfold readEffect; split <;> rfl
@[simp] theorem readEffect_optionReg : (readEffect a s).optionReg = s.optionReg := by
  unfold readEffect; split <;> rfl
@[simp] theorem readEffect_tmr0 : (readEffect a s).tmr0 = s.tmr0 := by
  unfold readEffect; split <;> rfl
@[simp] theorem readEffect_tmr0Inhibit : (readEffect a s).tmr0Inhibit = s.tmr0Inhibit := by
  unfold readEffect; split <;> rfl
@[simp] theorem readEffect_timer0Due : (readEffect a s).timer0Due = s.timer0Due := by
  unfold readEffect; split <;> rfl
@[simp] theorem readEffect_wdt : (readEffect a s).wdt = s.wdt := by
  unfold readEffect; split <;> rfl
@[simp] theorem readEffect_wdtps : (readEffect a s).wdtps = s.wdtps := by
  unfold readEffect; split <;> rfl
@[simp] theorem readEffect_wdtAge : (readEffect a s).wdtAge = s.wdtAge := by
  unfold readEffect; split <;> rfl
@[simp] theorem readEffect_sleeping : (readEffect a s).sleeping = s.sleeping := by
  unfold readEffect; split <;> rfl
@[simp] theorem readEffect_afterWake : (readEffect a s).afterWake = s.afterWake := by
  unfold readEffect; split <;> rfl
@[simp] theorem readEffect_stack : (readEffect a s).stack = s.stack := by
  unfold readEffect; split <;> rfl
@[simp] theorem readEffect_gpr : (readEffect a s).gpr = s.gpr := by
  unfold readEffect; split <;> rfl
@[simp] theorem readEffect_prog : (readEffect a s).prog = s.prog := by
  unfold readEffect; split <;> rfl
@[simp] theorem readEffect_cycles : (readEffect a s).cycles = s.cycles := by
  unfold readEffect; split <;> rfl
@[simp] theorem readEffect_inputs : (readEffect a s).inputs = s.inputs := by
  unfold readEffect; split <;> rfl

/-- A read has no effect on any register but a port (R77). -/
theorem readEffect_of_not_port (h : ∀ p, regKind s.cfg a ≠ .port p) : readEffect a s = s := by
  unfold readEffect; split
  · next p hp => exact absurd hp (h p)
  · rfl

/-- A port's latch and TRIS register are not changed by a read. -/
@[simp] theorem readEffect_latch (p : PortId) :
    (getPort p (readEffect a s)).latch = (getPort p s).latch := by
  unfold readEffect; split
  · next q _ => cases p <;> cases q <;> rfl
  · rfl

@[simp] theorem readEffect_tris (p : PortId) : (getPort p (readEffect a s)).tris = (getPort p s).tris := by
  unfold readEffect; split
  · next q _ => cases p <;> cases q <;> rfl
  · rfl

end

/-! ## Writing a register -/

section

variable (a : DataAddr) (v : Byte) (b : Bool) (s : State)

@[simp] theorem memWrite_cfg : (memWrite a v b s).cfg = s.cfg := by
  unfold memWrite; split <;> rfl
@[simp] theorem memWrite_w : (memWrite a v b s).w = s.w := by
  unfold memWrite; split <;> rfl
@[simp] theorem memWrite_pdBit : (memWrite a v b s).pdBit = s.pdBit := by
  unfold memWrite; split <;> rfl
@[simp] theorem memWrite_toBit : (memWrite a v b s).toBit = s.toBit := by
  unfold memWrite; split <;> rfl
@[simp] theorem memWrite_eeif : (memWrite a v b s).eeif = s.eeif := by
  unfold memWrite; split <;> rfl
@[simp] theorem memWrite_portbLast : (memWrite a v b s).portbLast = s.portbLast := by
  unfold memWrite; split <;> rfl
@[simp] theorem memWrite_wdt : (memWrite a v b s).wdt = s.wdt := by
  unfold memWrite; split <;> rfl
@[simp] theorem memWrite_sleeping : (memWrite a v b s).sleeping = s.sleeping := by
  unfold memWrite; split <;> rfl
@[simp] theorem memWrite_afterWake : (memWrite a v b s).afterWake = s.afterWake := by
  unfold memWrite; split <;> rfl
@[simp] theorem memWrite_stack : (memWrite a v b s).stack = s.stack := by
  unfold memWrite; split <;> rfl
@[simp] theorem memWrite_prog : (memWrite a v b s).prog = s.prog := by
  unfold memWrite; split <;> rfl
@[simp] theorem memWrite_inputs : (memWrite a v b s).inputs = s.inputs := by
  unfold memWrite; split <;> rfl

/-- A write keeps the canonical form of the general purpose registers. -/
theorem memWrite_gpr_wf (h : Memory.wf s.gpr = true) : Memory.wf (memWrite a v b s).gpr = true := by
  unfold memWrite; split <;> first | exact gprWrite_wf _ _ _ h | exact h

/-- A write leaves the pins of every port alone. -/
@[simp] theorem memWrite_pins (p : PortId) : (getPort p (memWrite a v b s)).pins = (getPort p s).pins := by
  unfold memWrite; split <;> first | rfl | (next q _ => cases p <;> cases q <;> rfl)

end

/-! ## The stack (R32, R33) -/

/-- What a push that succeeds does. -/
theorem push_ok {v : ProgAddr} {s t : State} (h : push v s = .ok t) :
    (s.stack.length < s.cfg.stackDepth ∧ t = { s with stack := v :: s.stack }) ∨
    (s.cfg.stackDepth ≤ s.stack.length ∧ s.cfg.stackMode = .circular ∧
      t = { s with stack := (v :: s.stack).take s.cfg.stackDepth }) := by
  unfold push at h
  split at h
  · next hlt => cases h; exact .inl ⟨hlt, rfl⟩
  · next hge =>
    split at h
    · cases h
    · next hm => cases h; exact .inr ⟨by omega, hm, rfl⟩

/-- A push changes the stack alone, and keeps it within `STACK_DEPTH`. -/
theorem push_frame {v : ProgAddr} {s t : State} (h : push v s = .ok t) :
    t = { s with stack := t.stack } ∧ t.stack.length ≤ s.cfg.stackDepth := by
  rcases push_ok h with ⟨hl, rfl⟩ | ⟨_, _, rfl⟩
  · exact ⟨rfl, hl⟩
  · exact ⟨rfl, by simp⟩

/-- When a push faults. -/
theorem push_error {v : ProgAddr} {s : State} {e : Fault} (h : push v s = .error e) :
    e = .stackOverflow s.pc ∧ s.cfg.stackDepth ≤ s.stack.length ∧ s.cfg.stackMode = .fault := by
  unfold push at h
  split at h
  · cases h
  · next hge =>
    split at h
    · next hm => cases h; exact ⟨rfl, by omega, hm⟩
    · cases h

/-- What a pop that succeeds does. -/
theorem pop_ok {s t : State} {v : ProgAddr} (h : pop s = .ok (v, t)) :
    (∃ rest, s.stack = v :: rest ∧ t = { s with stack := rest }) ∨
    (s.stack = [] ∧ s.cfg.stackMode = .circular ∧ v = Config.freeAddr s.draws ∧
      t = { s with draws := s.draws + 1 }) := by
  unfold pop at h
  split at h
  · next v' rest hs => cases h; exact .inl ⟨rest, hs, rfl⟩
  · next hs =>
    split at h
    · cases h
    · next hm => cases h; exact .inr ⟨hs, hm, rfl, rfl⟩

/-- A pop changes the stack and the draws alone, and the stack does not grow. -/
theorem pop_frame {s t : State} {v : ProgAddr} (h : pop s = .ok (v, t)) :
    t = { s with stack := t.stack, draws := t.draws } ∧ t.stack.length ≤ s.stack.length := by
  rcases pop_ok h with ⟨rest, hs, rfl⟩ | ⟨_, _, _, rfl⟩
  · exact ⟨rfl, by simp [hs]⟩
  · exact ⟨rfl, le_refl _⟩

/-- When a pop faults. -/
theorem pop_error {s : State} {e : Fault} (h : pop s = .error e) :
    e = .stackUnderflow s.pc ∧ s.stack = [] ∧ s.cfg.stackMode = .fault := by
  unfold pop at h
  split at h
  · cases h
  · next hs =>
    split at h
    · next hm => cases h; exact ⟨rfl, hs, hm⟩
    · cases h

/-! ## Interrupt entry and the returns -/

theorem takeInterrupt_next {s t : State} (h : takeInterrupt s = .next t) :
    ∃ s1, push s.pc s = .ok s1 ∧ t = tick 2 { setGie false s1 with pc := s1.cfg.intVector } := by
  unfold takeInterrupt at h
  split at h
  · cases h
  · next s1 hp => cases h; exact ⟨s1, hp, rfl⟩

theorem returnFromInterrupt_next {s t : State} (h : returnFromInterrupt s = .next t) :
    ∃ v s1, pop s = .ok (v, s1) ∧ t = jump v (advance (setGie true s1)) := by
  unfold returnFromInterrupt at h
  split at h
  · cases h
  · next v s1 hp => cases h; exact ⟨v, s1, hp, rfl⟩

theorem returnFromSubroutine_next {s t : State} (h : returnFromSubroutine s = .next t) :
    ∃ v s1, pop s = .ok (v, s1) ∧ t = jump v (advance s1) := by
  unfold returnFromSubroutine at h
  split at h
  · cases h
  · next v s1 hp => cases h; exact ⟨v, s1, hp, rfl⟩

/-! ## The shapes of the file register instructions -/

/-- An access to an address the machine accesses goes on with the value read (R63). -/
theorem withFile_of_readable {f : FileAddr} {s : State} (k : DataAddr → Byte → State → Result)
    (h : accessRefusal s.cfg (dataAddr f s) = none) :
    withFile f s k = k (dataAddr f s) (memRead (dataAddr f s) s) (readEffect (dataAddr f s) s) := by
  simp [withFile, h]

/-- An access to a refused address ends the instruction (R67, R158). -/
theorem withFile_of_refused {f : FileAddr} {s : State} {r : Refusal} (k : DataAddr → Byte → State → Result)
    (h : accessRefusal s.cfg (dataAddr f s) = some r) : withFile f s k = .refused r := by
  simp [withFile, h]

theorem withFile_next {f : FileAddr} {s t : State} {k : DataAddr → Byte → State → Result}
    (h : withFile f s k = .next t) :
    accessRefusal s.cfg (dataAddr f s) = none ∧
    k (dataAddr f s) (memRead (dataAddr f s) s) (readEffect (dataAddr f s) s) = .next t := by
  unfold withFile at h
  split at h
  · cases h
  · next hr => exact ⟨hr, h⟩

/-- What a file register instruction that runs does (R159). -/
theorem fileToDest_next {f : FileAddr} {d : Dest} {op : Byte → Byte × FlagUpdate} {s t : State}
    (h : fileToDest f d op s = .next t) :
    accessRefusal s.cfg (dataAddr f s) = none ∧
    t = setFlags (op (memRead (dataAddr f s) s)).2
      (writeDest d (dataAddr f s) (op (memRead (dataAddr f s) s)).1
        (affectsAny (op (memRead (dataAddr f s) s)).2) (advance (readEffect (dataAddr f s) s))) := by
  obtain ⟨hr, hk⟩ := withFile_next h
  cases hk
  exact ⟨hr, rfl⟩

/-- What DECFSZ and INCFSZ do when they run: the destination takes the result, and a zero result skips (R184). -/
theorem fileToDestSkip_next {f : FileAddr} {d : Dest} {op : Byte → Byte} {s t : State}
    (h : fileToDestSkip f d op s = .next t) :
    ¬ (d = .f ∧ regKind s.cfg (dataAddr f s) = .pcl) ∧ accessRefusal s.cfg (dataAddr f s) = none ∧
    ((op (memRead (dataAddr f s) s) = 0 ∧
        t = skipNext (writeDest d (dataAddr f s) (op (memRead (dataAddr f s) s)) false
          (advance (readEffect (dataAddr f s) s)))) ∨
     (op (memRead (dataAddr f s) s) ≠ 0 ∧
        t = writeDest d (dataAddr f s) (op (memRead (dataAddr f s) s)) false
          (advance (readEffect (dataAddr f s) s)))) := by
  unfold fileToDestSkip at h
  split at h
  · cases h
  · next hp =>
    obtain ⟨hr, hk⟩ := withFile_next h
    refine ⟨by simpa using hp, hr, ?_⟩
    split at hk
    · next h0 => cases hk; exact .inl ⟨h0, rfl⟩
    · next h0 => cases hk; exact .inr ⟨h0, rfl⟩

/-- What a bit test that runs does (R182, R183, R184). -/
theorem testSkip_next {f : FileAddr} {b : BitNum} {on : Bool} {s t : State} (h : testSkip f b on s = .next t) :
    accessRefusal s.cfg (dataAddr f s) = none ∧
    (t = skipNext (advance (readEffect (dataAddr f s) s)) ∨ t = advance (readEffect (dataAddr f s) s)) := by
  obtain ⟨hr, hk⟩ := withFile_next h
  refine ⟨hr, ?_⟩
  split at hk
  · cases hk; exact .inl rfl
  · cases hk; exact .inr rfl

end Sys2Proof.Machine
end

