-- ==== Sys2Proof/Laws/Agents.lean ====
section
/-! SUPPORT. What the agents beside the core can change: raising a flag, one clock and any number of cycles of
Timer0, the RB source, and all of them after an instruction. -/

namespace Sys2Proof.Machine

/-! ## Raising a flag (R235, R236) -/

/-- Raising flags changes INTCON and EEIF alone. -/
theorem raiseLines_frame (ls : List IntLine) (src : IntSource) (s : State) :
    raiseLines ls src s =
      { s with intcon := (raiseLines ls src s).intcon, eeif := (raiseLines ls src s).eeif } := by
  induction ls generalizing s with
  | nil => rfl
  | cons l rest ih =>
    rw [raiseLines, ih]
    split
    · cases l.flag <;> rfl
    · rfl

/-- A bit that is 1 stays 1 when bits are set. -/
theorem and_not_or_eq_zero (x y : Byte) : x &&& ~~~(x ||| y) = 0 := by
  apply BitVec.eq_of_getLsbD_eq
  intro i _
  simp only [BitVec.getLsbD_and, BitVec.getLsbD_not, BitVec.getLsbD_or]
  cases x.getLsbD i <;> simp

/-- Setting bits composes. -/
theorem and_not_trans {x y z : Byte} (h : x &&& ~~~y = 0) (h' : y &&& ~~~z = 0) : x &&& ~~~z = 0 := by
  apply BitVec.eq_of_getLsbD_eq
  intro i hi
  have a := congrArg (·.getLsbD i) h
  have b := congrArg (·.getLsbD i) h'
  simp only [BitVec.getLsbD_and, BitVec.getLsbD_not, hi, decide_true, Bool.true_and] at a b ⊢
  generalize x.getLsbD i = p at *
  generalize y.getLsbD i = q at *
  generalize z.getLsbD i = r at *
  revert a b
  cases p <;> cases q <;> cases r <;> simp

/-- Raising flags clears no bit of INTCON and does not clear EEIF (R235). -/
theorem raiseLines_mono (ls : List IntLine) (src : IntSource) (s : State) :
    s.intcon &&& ~~~(raiseLines ls src s).intcon = 0 ∧ (s.eeif = true → (raiseLines ls src s).eeif = true) := by
  induction ls generalizing s with
  | nil => exact ⟨by simp [raiseLines], id⟩
  | cons l rest ih =>
    rw [raiseLines]
    split
    · obtain ⟨h1, h2⟩ := ih (setPlace l.flag s)
      cases hl : l.flag with
      | intcon n => rw [hl] at h1 h2; exact ⟨and_not_trans (and_not_or_eq_zero _ _) h1, h2⟩
      | eeif => rw [hl] at h1 h2; exact ⟨h1, fun _ => h2 rfl⟩
    · exact ih s

/-- Under P84's sources: each flag of R236. -/
theorem raiseIntFlag_p84 {s : State} (h : s.cfg.intSources = intSourcesP84) :
    raiseIntFlag .int s = { s with intcon := s.intcon ||| 0x02 } ∧
    raiseIntFlag .t0 s = { s with intcon := s.intcon ||| 0x04 } ∧
    raiseIntFlag .rb s = { s with intcon := s.intcon ||| 0x01 } ∧
    raiseIntFlag .ee s = { s with eeif := true } := by
  unfold raiseIntFlag
  rw [h]
  exact ⟨rfl, rfl, rfl, rfl⟩

/-! ## What the agents may touch -/

/-- `t` is `s` but for TMR0, WDTPS, Timer0's own counters and interrupt flags, of which none is cleared. -/
structure AgentFrame (s t : State) : Prop where
  frame : t =
    { s with
      tmr0 := t.tmr0, wdtps := t.wdtps, tmr0Inhibit := t.tmr0Inhibit, timer0Due := t.timer0Due
      intcon := t.intcon, eeif := t.eeif }
  intcon_mono : s.intcon &&& ~~~t.intcon = 0
  eeif_mono : s.eeif = true → t.eeif = true

theorem AgentFrame.refl (s : State) : AgentFrame s s := ⟨rfl, by simp, id⟩

theorem AgentFrame.trans {s t u : State} (h : AgentFrame s t) (h' : AgentFrame t u) : AgentFrame s u := by
  refine ⟨?_, and_not_trans h.intcon_mono h'.intcon_mono, fun e => h'.eeif_mono (h.eeif_mono e)⟩
  have a := h'.frame
  rw [h.frame] at a
  exact a

theorem raiseIntFlag_agentFrame (src : IntSource) (s : State) : AgentFrame s (raiseIntFlag src s) := by
  obtain ⟨h1, h2⟩ := raiseLines_mono s.cfg.intSources src s
  have hf := raiseLines_frame s.cfg.intSources src s
  refine ⟨?_, h1, h2⟩
  unfold raiseIntFlag
  rw [hf]

theorem tmr0Tick_agentFrame (s : State) : AgentFrame s (tmr0Tick s) := by
  unfold tmr0Tick
  split
  · exact AgentFrame.trans (t := { s with tmr0 := 0 }) ⟨rfl, by simp, id⟩ (raiseIntFlag_agentFrame _ _)
  · exact ⟨rfl, by simp, id⟩

theorem tmr0Count_agentFrame (s : State) : AgentFrame s (tmr0Count s) := by
  unfold tmr0Count
  split
  · exact tmr0Tick_agentFrame s
  · exact .refl s

theorem timer0Clock_agentFrame (s : State) : AgentFrame s (timer0Clock s) := by
  unfold timer0Clock
  split
  · exact tmr0Count_agentFrame s
  · split
    · exact AgentFrame.trans (t := { s with wdtps := s.wdtps + 1 }) ⟨rfl, by simp, id⟩ (tmr0Count_agentFrame _)
    · exact ⟨rfl, by simp, id⟩

theorem timer0Cycle_agentFrame (s : State) : AgentFrame s (timer0Cycle s) := by
  unfold timer0Cycle
  split
  · exact ⟨rfl, by simp, id⟩
  · exact (timer0Clock_agentFrame s).trans ⟨rfl, by simp, id⟩

theorem timer0Cycles_agentFrame (n : Nat) (s : State) : AgentFrame s (timer0Cycles n s) := by
  induction n generalizing s with
  | zero => exact .refl s
  | succ n ih => exact (timer0Cycle_agentFrame s).trans (ih _)

theorem timer0Acts_agentFrame (s : State) : AgentFrame s (timer0Acts s) :=
  (timer0Cycles_agentFrame _ s).trans ⟨rfl, by simp [timer0Acts], id⟩

theorem rbSense_agentFrame (last : Byte) (s : State) : AgentFrame s (rbSense last s) := by
  unfold rbSense
  split
  · exact raiseIntFlag_agentFrame _ _
  · exact .refl s

/-- What the agents can do after an instruction (R235, R236, R242). -/
theorem agentsAct_agentFrame (before s : State) : AgentFrame s (agentsAct before s) :=
  (rbSense_agentFrame _ _).trans (timer0Acts_agentFrame _)

/-- Nothing is due for Timer0 after the agents acted. -/
@[simp] theorem agentsAct_timer0Due (before s : State) : (agentsAct before s).timer0Due = 0 := rfl

/-! ## Lifting to outcomes -/

/-- The agents act after a next state only. -/
theorem thenAgents_next {before t : State} {o : Result} (h : thenAgents before o = .next t) :
    ∃ s, o = .next s ∧ t = agentsAct before s := by
  unfold thenAgents at h
  split at h
  · cases h; exact ⟨_, rfl, rfl⟩
  · cases h
  · cases h

@[simp] theorem thenAgents_of_next (before s : State) :
    thenAgents before (.next s) = .next (agentsAct before s) := rfl

@[simp] theorem thenAgents_of_fault (before : State) (e : Fault) : thenAgents before (.fault e) = .fault e := rfl

@[simp] theorem thenAgents_of_refused (before : State) (r : Refusal) :
    thenAgents before (.refused r) = .refused r := rfl

end Sys2Proof.Machine
end

