-- ==== Sys2Proof/Laws/Encoding.lean ====
section
/-! SUPPORT. The operand fields and opcode bits of an encoded word, one set of lemmas per format (R101 to R104). -/

namespace Sys2Proof

section Byte

variable (op : BitVec 4) (d : BitVec 1) (f : FileAddr)

theorem encodeByte_group : (encodeByte op d f).extractLsb' 12 2 = 0b00#2 := by
  ext i hi; have : i = 0 ∨ i = 1 := by omega
  rcases this with rfl | rfl <;>
    (simp only [encodeByte, BitVec.getElem_extractLsb', BitVec.getLsbD_append]; simp)

theorem encodeByte_opcode : (encodeByte op d f).extractLsb' 8 4 = op := by
  ext i hi
  simp only [encodeByte, BitVec.getElem_extractLsb', BitVec.getLsbD_append]
  rw [if_neg (by omega), if_neg (by omega), if_pos (by omega), BitVec.getLsbD_eq_getElem (by omega)]
  congr 1; omega

theorem encodeByte_bit7 : (encodeByte op d f).getLsbD 7 = d.getLsbD 0 := by
  simp only [encodeByte, BitVec.getLsbD_append]; rfl

theorem encodeByte_fieldF : fieldF (encodeByte op d f) = f := by
  ext i hi
  simp only [fieldF, encodeByte, BitVec.getElem_extractLsb', BitVec.getLsbD_append]
  rw [if_pos (by omega), BitVec.getLsbD_eq_getElem (by omega)]
  congr 1; omega

theorem encodeByte_fieldD (d : Dest) : fieldD (encodeByte op (destBit d) f) = d := by
  unfold fieldD; rw [encodeByte_bit7]; cases d <;> rfl

end Byte

section Bit

variable (op : BitVec 2) (b : BitNum) (f : FileAddr)

theorem encodeBit_group : (encodeBit op b f).extractLsb' 12 2 = 0b01#2 := by
  ext i hi; have : i = 0 ∨ i = 1 := by omega
  rcases this with rfl | rfl <;>
    (simp only [encodeBit, BitVec.getElem_extractLsb', BitVec.getLsbD_append]; simp)

theorem encodeBit_opcode : (encodeBit op b f).extractLsb' 10 2 = op := by
  ext i hi
  simp only [encodeBit, BitVec.getElem_extractLsb', BitVec.getLsbD_append]
  rw [if_neg (by omega), if_neg (by omega), if_pos (by omega), BitVec.getLsbD_eq_getElem (by omega)]
  congr 1; omega

theorem encodeBit_fieldF : fieldF (encodeBit op b f) = f := by
  ext i hi
  simp only [fieldF, encodeBit, BitVec.getElem_extractLsb', BitVec.getLsbD_append]
  rw [if_pos (by omega), BitVec.getLsbD_eq_getElem (by omega)]
  congr 1; omega

theorem encodeBit_fieldB : fieldB (encodeBit op b f) = b := by
  ext i hi
  simp only [fieldB, encodeBit, BitVec.getElem_extractLsb', BitVec.getLsbD_append]
  rw [if_neg (by omega), if_pos (by omega), BitVec.getLsbD_eq_getElem (by omega)]
  congr 1; omega

end Bit

section Literal

variable (op : BitVec 4) (k : Byte)

theorem encodeLiteral_group : (encodeLiteral op k).extractLsb' 12 2 = 0b11#2 := by
  ext i hi; have : i = 0 ∨ i = 1 := by omega
  rcases this with rfl | rfl <;>
    (simp only [encodeLiteral, BitVec.getElem_extractLsb', BitVec.getLsbD_append]; simp)

theorem encodeLiteral_opcode : (encodeLiteral op k).extractLsb' 8 4 = op := by
  ext i hi
  simp only [encodeLiteral, BitVec.getElem_extractLsb', BitVec.getLsbD_append]
  rw [if_neg (by omega), if_pos (by omega), BitVec.getLsbD_eq_getElem (by omega)]
  congr 1; omega

theorem encodeLiteral_fieldK8 : fieldK8 (encodeLiteral op k) = k := by
  ext i hi
  simp only [fieldK8, encodeLiteral, BitVec.getElem_extractLsb', BitVec.getLsbD_append]
  rw [if_pos (by omega), BitVec.getLsbD_eq_getElem (by omega)]
  congr 1; omega

end Literal

section Jump

variable (op : BitVec 1) (k : BitVec 11)

theorem encodeJump_group : (encodeJump op k).extractLsb' 12 2 = 0b10#2 := by
  ext i hi; have : i = 0 ∨ i = 1 := by omega
  rcases this with rfl | rfl <;>
    (simp only [encodeJump, BitVec.getElem_extractLsb', BitVec.getLsbD_append]; simp)

theorem encodeJump_bit11 : (encodeJump op k).getLsbD 11 = op.getLsbD 0 := by
  simp only [encodeJump, BitVec.getLsbD_append]; rfl

theorem encodeJump_fieldK11 : fieldK11 (encodeJump op k) = k := by
  ext i hi
  simp only [fieldK11, encodeJump, BitVec.getElem_extractLsb', BitVec.getLsbD_append]
  rw [if_pos (by omega), BitVec.getLsbD_eq_getElem (by omega)]
  congr 1; omega

end Jump

/-! How a word of each format decodes, by its opcode. -/

theorem decode_encodeByte (op : BitVec 4) (d : BitVec 1) (f : FileAddr) :
    decode (encodeByte op d f) = decodeByte (encodeByte op d f) := by
  simp [decode, encodeByte_group]

theorem decode_encodeBit (op : BitVec 2) (b : BitNum) (f : FileAddr) :
    decode (encodeBit op b f) = decodeBit (encodeBit op b f) := by
  simp [decode, encodeBit_group]

theorem decode_encodeLiteral (op : BitVec 4) (k : Byte) :
    decode (encodeLiteral op k) = decodeLiteral (encodeLiteral op k) := by
  simp [decode, encodeLiteral_group]

theorem decode_encodeJump (op : BitVec 1) (k : BitVec 11) :
    decode (encodeJump op k) = decodeJump (encodeJump op k) := by
  simp [decode, encodeJump_group]

end Sys2Proof
end

