-- ==== Sys2Proof/Laws/PerInstr.lean ====
section
/-! SUPPORT. The family RoundTrip: decoding the canonical word of a well-formed instruction gives the instruction
back, one lemma per constructor. -/

namespace Sys2Proof.Laws.RoundTrip

/-- The word of `i` decodes to `i`, and the fields of a well-formed `i` are those of its word. -/
def Statement (i : Instr) : Prop := i.wellFormed = true → decode (encode i) = .instr i

theorem addwf (f : FileAddr) (d : Dest) : Statement (.addwf f d) := fun _ => by
  simp only [encode, decode_encodeByte, decodeByte, encodeByte_opcode, encodeByte_fieldF, encodeByte_fieldD]; rfl

theorem andwf (f : FileAddr) (d : Dest) : Statement (.andwf f d) := fun _ => by
  simp only [encode, decode_encodeByte, decodeByte, encodeByte_opcode, encodeByte_fieldF, encodeByte_fieldD]; rfl

theorem clrf (f : FileAddr) : Statement (.clrf f) := fun _ => by
  simp only [encode, decode_encodeByte, decodeByte, encodeByte_opcode, encodeByte_bit7, encodeByte_fieldF]; rfl

theorem clrw : Statement .clrw := fun _ => by decide

theorem comf (f : FileAddr) (d : Dest) : Statement (.comf f d) := fun _ => by
  simp only [encode, decode_encodeByte, decodeByte, encodeByte_opcode, encodeByte_fieldF, encodeByte_fieldD]; rfl

theorem decf (f : FileAddr) (d : Dest) : Statement (.decf f d) := fun _ => by
  simp only [encode, decode_encodeByte, decodeByte, encodeByte_opcode, encodeByte_fieldF, encodeByte_fieldD]; rfl

theorem decfsz (f : FileAddr) (d : Dest) : Statement (.decfsz f d) := fun _ => by
  simp only [encode, decode_encodeByte, decodeByte, encodeByte_opcode, encodeByte_fieldF, encodeByte_fieldD]; rfl

theorem incf (f : FileAddr) (d : Dest) : Statement (.incf f d) := fun _ => by
  simp only [encode, decode_encodeByte, decodeByte, encodeByte_opcode, encodeByte_fieldF, encodeByte_fieldD]; rfl

theorem incfsz (f : FileAddr) (d : Dest) : Statement (.incfsz f d) := fun _ => by
  simp only [encode, decode_encodeByte, decodeByte, encodeByte_opcode, encodeByte_fieldF, encodeByte_fieldD]; rfl

theorem iorwf (f : FileAddr) (d : Dest) : Statement (.iorwf f d) := fun _ => by
  simp only [encode, decode_encodeByte, decodeByte, encodeByte_opcode, encodeByte_fieldF, encodeByte_fieldD]; rfl

theorem movf (f : FileAddr) (d : Dest) : Statement (.movf f d) := fun _ => by
  simp only [encode, decode_encodeByte, decodeByte, encodeByte_opcode, encodeByte_fieldF, encodeByte_fieldD]; rfl

theorem movwf (f : FileAddr) : Statement (.movwf f) := fun _ => by
  simp only [encode, decode_encodeByte, decodeByte, encodeByte_opcode, encodeByte_bit7, encodeByte_fieldF]; rfl

theorem nop : Statement .nop := fun _ => by decide

theorem rlf (f : FileAddr) (d : Dest) : Statement (.rlf f d) := fun _ => by
  simp only [encode, decode_encodeByte, decodeByte, encodeByte_opcode, encodeByte_fieldF, encodeByte_fieldD]; rfl

theorem rrf (f : FileAddr) (d : Dest) : Statement (.rrf f d) := fun _ => by
  simp only [encode, decode_encodeByte, decodeByte, encodeByte_opcode, encodeByte_fieldF, encodeByte_fieldD]; rfl

theorem subwf (f : FileAddr) (d : Dest) : Statement (.subwf f d) := fun _ => by
  simp only [encode, decode_encodeByte, decodeByte, encodeByte_opcode, encodeByte_fieldF, encodeByte_fieldD]; rfl

theorem swapf (f : FileAddr) (d : Dest) : Statement (.swapf f d) := fun _ => by
  simp only [encode, decode_encodeByte, decodeByte, encodeByte_opcode, encodeByte_fieldF, encodeByte_fieldD]; rfl

theorem xorwf (f : FileAddr) (d : Dest) : Statement (.xorwf f d) := fun _ => by
  simp only [encode, decode_encodeByte, decodeByte, encodeByte_opcode, encodeByte_fieldF, encodeByte_fieldD]; rfl

theorem bcf (f : FileAddr) (b : BitNum) : Statement (.bcf f b) := fun _ => by
  simp only [encode, decode_encodeBit, decodeBit, encodeBit_opcode, encodeBit_fieldF, encodeBit_fieldB]; rfl

theorem bsf (f : FileAddr) (b : BitNum) : Statement (.bsf f b) := fun _ => by
  simp only [encode, decode_encodeBit, decodeBit, encodeBit_opcode, encodeBit_fieldF, encodeBit_fieldB]; rfl

theorem btfsc (f : FileAddr) (b : BitNum) : Statement (.btfsc f b) := fun _ => by
  simp only [encode, decode_encodeBit, decodeBit, encodeBit_opcode, encodeBit_fieldF, encodeBit_fieldB]; rfl

theorem btfss (f : FileAddr) (b : BitNum) : Statement (.btfss f b) := fun _ => by
  simp only [encode, decode_encodeBit, decodeBit, encodeBit_opcode, encodeBit_fieldF, encodeBit_fieldB]; rfl

theorem addlw (k : Byte) : Statement (.addlw k) := fun _ => by
  simp only [encode, decode_encodeLiteral, decodeLiteral, encodeLiteral_opcode, encodeLiteral_fieldK8]; rfl

theorem andlw (k : Byte) : Statement (.andlw k) := fun _ => by
  simp only [encode, decode_encodeLiteral, decodeLiteral, encodeLiteral_opcode, encodeLiteral_fieldK8]; rfl

theorem call (k : BitVec 11) : Statement (.call k) := fun _ => by
  simp only [encode, decode_encodeJump, decodeJump, encodeJump_bit11, encodeJump_fieldK11]; rfl

theorem clrwdt : Statement .clrwdt := fun _ => by decide

theorem goto (k : BitVec 11) : Statement (.goto k) := fun _ => by
  simp only [encode, decode_encodeJump, decodeJump, encodeJump_bit11, encodeJump_fieldK11]; rfl

theorem iorlw (k : Byte) : Statement (.iorlw k) := fun _ => by
  simp only [encode, decode_encodeLiteral, decodeLiteral, encodeLiteral_opcode, encodeLiteral_fieldK8]; rfl

theorem movlw (k : Byte) : Statement (.movlw k) := fun _ => by
  simp only [encode, decode_encodeLiteral, decodeLiteral, encodeLiteral_opcode, encodeLiteral_fieldK8]; rfl

theorem retfie : Statement .retfie := fun _ => by decide

theorem retlw (k : Byte) : Statement (.retlw k) := fun _ => by
  simp only [encode, decode_encodeLiteral, decodeLiteral, encodeLiteral_opcode, encodeLiteral_fieldK8]; rfl

theorem ret : Statement .ret := fun _ => by decide

theorem sleep : Statement .sleep := fun _ => by decide

theorem sublw (k : Byte) : Statement (.sublw k) := fun _ => by
  simp only [encode, decode_encodeLiteral, decodeLiteral, encodeLiteral_opcode, encodeLiteral_fieldK8]; rfl

theorem xorlw (k : Byte) : Statement (.xorlw k) := fun _ => by
  simp only [encode, decode_encodeLiteral, decodeLiteral, encodeLiteral_opcode, encodeLiteral_fieldK8]; rfl

theorem option : Statement .option := fun _ => by decide

theorem tris (n : BitVec 3) : Statement (.tris n) := by
  revert n; unfold Statement; decide

end Sys2Proof.Laws.RoundTrip
end

