-- ==== Sys2Proof/Laws/Step.lean ====
section
/-! SUPPORT. What one step of the machine can do: the inversion lemmas of the instruction step, the boundary and
the whole step (R251), and what the environment's steps and the resets leave alone. -/

namespace Sys2Proof.Machine

/-- The instruction step that runs executes the decoded word at PC (R60). -/
theorem instrStep_next {s t : State} (h : instrStep s = .next t) :
    ∃ word i, progRead s.prog s.pc = some word ∧ decode word = .instr i ∧
      exec i { s with afterWake := false } = .next t := by
  unfold instrStep at h
  split at h
  · cases h
  · next word hw =>
    split at h
    · cases h
    · next i hi => exact ⟨word, i, hw, hi, h⟩

/-- The instruction step, given the decoded word at PC. -/
theorem instrStep_of_decode {s : State} {word : InstrWord} {i : Instr} (hw : progRead s.prog s.pc = some word)
    (hi : decode word = .instr i) : instrStep s = exec i { s with afterWake := false } := by
  simp only [instrStep, hw, hi]

/-- Everything a boundary can do (R239, R251). -/
theorem boundaryStep_next {b : Boundary} {s t : State} (h : boundaryStep b s = .next t) :
    (∃ line, b.reset = some line ∧ t = applyReset (resetCauseOf line s) s) ∨
    (wdtDue s = true ∧ t = wdtTimeout s) ∨
    (s.sleeping = true ∧ wakeReq s = true ∧ t = intWake s) ∨
    (s.sleeping = true ∧ t = s) ∨
    (s.sleeping = false ∧ intEntryEnabled s = true ∧ ∃ u, takeInterrupt s = .next u ∧ t = agentsAct s u) ∨
    (s.sleeping = false ∧ ∃ u, instrStep s = .next u ∧ t = agentsAct s u) := by
  unfold boundaryStep at h
  split at h
  · next line hl => cases h; exact .inl ⟨line, hl, rfl⟩
  · split at h
    · next hw =>
      cases h
      exact .inr (.inl ⟨(Bool.and_eq_true _ _ ▸ hw).2, rfl⟩)
    · split at h
      · next hs =>
        split at h
        · next hw =>
          cases h
          exact .inr (.inr (.inl ⟨hs, (Bool.and_eq_true _ _ ▸ hw).1, rfl⟩))
        · cases h; exact .inr (.inr (.inr (.inl ⟨hs, rfl⟩)))
      · next hs =>
        have hs' : s.sleeping = false := by simpa using hs
        split at h
        · next he =>
          exact .inr (.inr (.inr (.inr (.inl ⟨hs', (Bool.and_eq_true _ _ ▸ he).1, thenAgents_next h⟩))))
        · exact .inr (.inr (.inr (.inr (.inr ⟨hs', thenAgents_next h⟩))))

/-- Everything a step can do: an environment step, or a boundary with what the environment offers (R251). -/
theorem step_next {s t : State} (h : step s = .next t) :
    (∃ e rest, s.inputs = .env e :: rest ∧ t = applyEnv e { s with inputs := rest }) ∨
    (∃ b rest, s.inputs = .boundary b :: rest ∧ boundaryStep b { s with inputs := rest } = .next t) ∨
    (s.inputs = [] ∧ boundaryStep quietBoundary s = .next t) := by
  unfold step machineStep at h
  split at h
  · next hi => exact .inr (.inr ⟨hi, h⟩)
  · next e rest hi => cases h; exact .inl ⟨e, rest, hi, rfl⟩
  · next b rest hi => exact .inr (.inl ⟨b, rest, hi, h⟩)

/-- A quiet boundary of an awake core with no entry enabled is the instruction step, and then the agents. -/
theorem boundaryStep_quiet {s : State} (hs : s.sleeping = false) (he : intEntryEnabled s = false) :
    boundaryStep quietBoundary s = thenAgents s (instrStep s) := by
  simp [boundaryStep, quietBoundary, hs, he]

/-- A boundary that puts an entry off is the instruction step of an awake core, and then the agents (R237). -/
theorem boundaryStep_postponed {s : State} (hs : s.sleeping = false) :
    boundaryStep postponedBoundary s = thenAgents s (instrStep s) := by
  simp [boundaryStep, postponedBoundary, hs]

/-- The word just loaded is the one the next step runs. -/
theorem step_withFetchWord (s : State) (n w : Nat) (i : Instr) (h : decode (BitVec.ofNat 14 w) = .instr i) :
    step (s.withFetchWord n w) =
      thenAgents s (exec i { s with
        prog := progStore s.prog s.pc (BitVec.ofNat 14 w), sleeping := false, afterWake := false }) := by
  unfold step machineStep State.withFetchWord loadNextWord
  by_cases hc : s.inputs.isEmpty && !intEntryEnabled { s with sleeping := false }
  · simp only [hc, if_true]
    obtain ⟨h1, h2⟩ := Bool.and_eq_true _ _ ▸ hc
    rw [Bool.not_eq_true'] at h2
    rw [List.isEmpty_iff] at h1
    rw [h1]
    refine (boundaryStep_quiet rfl ?_).trans (congrArg (thenAgents s) (instrStep_of_decode ?_ h))
    · exact h2
    · simp [progRead_progStore]
  · simp only [hc]
    exact (boundaryStep_postponed rfl).trans
      (congrArg (thenAgents s) (instrStep_of_decode (by simp [progRead_progStore]) h))

/-! ## What the environment and the resets leave alone -/

/-- An environment step changes only the pins, the flags, TMR0 and the counters of Timer0 and the Watchdog
(R251). -/
theorem applyEnv_frame (e : EnvEvent) (s : State) :
    applyEnv e s =
      { s with
        intcon := (applyEnv e s).intcon
        eeif := (applyEnv e s).eeif
        portA := { s.portA with pins := (applyEnv e s).portA.pins }
        portB := { s.portB with pins := (applyEnv e s).portB.pins }
        portC := { s.portC with pins := (applyEnv e s).portC.pins }
        tmr0 := (applyEnv e s).tmr0
        wdt := (applyEnv e s).wdt
        wdtps := (applyEnv e s).wdtps
        wdtAge := (applyEnv e s).wdtAge } := by
  have raise : ∀ src (s : State), raiseIntFlag src s =
      { s with intcon := (raiseIntFlag src s).intcon, eeif := (raiseIntFlag src s).eeif } :=
    fun src s => raiseLines_frame s.cfg.intSources src s
  cases e with
  | pins p v =>
    simp only [applyEnv, setPins, rbSense]
    split_ifs <;> first | (rw [raise]; cases p <;> rfl) | (cases p <;> rfl)
  | intEdge r => simp only [applyEnv]; split <;> first | (rw [raise]) | rfl
  | raiseFlag src => simp only [applyEnv]; rw [raise]
  | timer0Edge r =>
    simp only [applyEnv, timer0Clock, tmr0Count, tmr0Tick]
    split_ifs <;> first | rfl | (rw [raise])
  | watchdogClock => simp only [applyEnv, watchdogClock]; split_ifs <;> rfl
  | idle n => simp only [applyEnv]; split_ifs <;> rfl

/-- Every reset leaves the configuration, the program and the model's own fields alone. -/
theorem applyReset_frame (cause : ResetCause) (s : State) :
    (applyReset cause s).cfg = s.cfg ∧ (applyReset cause s).prog = s.prog ∧
    (applyReset cause s).inputs = s.inputs ∧ (applyReset cause s).cycles = s.cycles ∧
    (applyReset cause s).draws = s.draws := by
  cases cause <;> exact ⟨rfl, rfl, rfl, rfl, rfl⟩

end Sys2Proof.Machine
end

