-- ==== Sys2Proof/Tests/Slice0.lean ====
section
/-! SUPPORT. The model's own tests. Words are written out from the encoding lines of spec/30_encoding.md, expected
results are those of spec/95_test_vectors.md (S<n> of its part 1, or the section of its part 2). For every statement
with hypotheses a `test_witness_…` theorem shows concrete values that meet them. -/

namespace Sys2Proof.Tests

open Machine Claims

/-! ## Helpers -/

/-- The next state of an outcome. -/
def nxt (o : Result) : Option State :=
  match o with
  | .next t => some t
  | .fault _ => none
  | .refused _ => none

/-- The fault of an outcome. -/
def flt (o : Result) : Option Fault :=
  match o with
  | .next _ => none
  | .fault e => some e
  | .refused _ => none

/-- The refusal of an outcome. -/
def rfs (o : Result) : Option Refusal :=
  match o with
  | .next _ => none
  | .fault _ => none
  | .refused r => some r

/-- At address 0x0100 with W and general purpose register 0x20. -/
def base (w v : Byte) : State := { State.reset with pc := 0x0100, w := w, gpr := gprWrite [] 0x20 v }

/-- The next state of one step that fetches a word. -/
def run (word : Nat) (s : State) : Option State := nxt (step (s.withFetchWord 14 word))

/-- W, register 0x20, C, DC, Z and PC after one step that fetches a word. -/
def after (word : Nat) (s : State) : Option (Byte × Byte × Bool × Bool × Bool × ProgAddr) :=
  (run word s).map fun t => (t.w, gprRead t.gpr 0x20, t.c, t.dc, t.z, t.pc)

/-- TMR0 and the prescaler about to wrap, OPTION as given. -/
def timing (option : Byte) : State :=
  { base 0xFF 0x33 with optionReg := option, tmr0 := 0xFF, wdtps := 0xFF, timer0Due := 1 }

/-- RB4 differs from the value last read, and TRISB is as given. -/
def mismatched (tris : Byte) : State :=
  { base 0xFF 0x33 with portB := { latch := 0, tris := tris, pins := some 0x10 } }

/-! ## Well-formedness -/

theorem test_tris_4_is_ill_formed : (Instr.tris 4).wellFormed = false := by decide

theorem test_tris_0_is_ill_formed : (Instr.tris 0).wellFormed = false := by decide

theorem test_tris_numbers_well_formed :
    (Instr.tris 5).wellFormed = true ∧ (Instr.tris 6).wellFormed = true ∧ (Instr.tris 7).wellFormed = true := by
  decide

/-! ## Decoding: every constructor, from words written out (R110) -/

theorem test_decode_byte_oriented :
    decode 0b00011110100000 = .instr (.addwf 0x20 .f) ∧ decode 0b00010100100000 = .instr (.andwf 0x20 .w) ∧
    decode 0b00000110100000 = .instr (.clrf 0x20) ∧ decode 0b00000100000000 = .instr .clrw ∧
    decode 0b00100110100000 = .instr (.comf 0x20 .f) ∧ decode 0b00001100100000 = .instr (.decf 0x20 .w) ∧
    decode 0b00101110100000 = .instr (.decfsz 0x20 .f) ∧ decode 0b00101000100000 = .instr (.incf 0x20 .w) ∧
    decode 0b00111110100000 = .instr (.incfsz 0x20 .f) ∧ decode 0b00010000100000 = .instr (.iorwf 0x20 .w) ∧
    decode 0b00100010100000 = .instr (.movf 0x20 .f) ∧ decode 0b00000010100000 = .instr (.movwf 0x20) ∧
    decode 0b00000000000000 = .instr .nop ∧ decode 0b00110100100000 = .instr (.rlf 0x20 .w) ∧
    decode 0b00110010100000 = .instr (.rrf 0x20 .f) ∧ decode 0b00001000100000 = .instr (.subwf 0x20 .w) ∧
    decode 0b00111010100000 = .instr (.swapf 0x20 .f) ∧ decode 0b00011000100000 = .instr (.xorwf 0x20 .w) := by
  decide

theorem test_decode_bit_oriented :
    decode 0b01001110100000 = .instr (.bcf 0x20 7) ∧ decode 0b01010110100000 = .instr (.bsf 0x20 3) ∧
    decode 0b01100000100000 = .instr (.btfsc 0x20 0) ∧ decode 0b01111110100000 = .instr (.btfss 0x20 7) := by
  decide

theorem test_decode_literal :
    decode 0b11111000010101 = .instr (.addlw 0x15) ∧ decode 0b11111111111111 = .instr (.addlw 0xFF) ∧
    decode 0b11100101011111 = .instr (.andlw 0x5F) ∧ decode 0b11100000110101 = .instr (.iorlw 0x35) ∧
    decode 0b11001101011010 = .instr (.movlw 0x5A) ∧ decode 0b11110100000010 = .instr (.sublw 0x02) ∧
    decode 0b11101010101111 = .instr (.xorlw 0xAF) := by
  decide

theorem test_decode_control :
    decode 0b10000100100011 = .instr (.call 0x123) ∧ decode 0b10111111111111 = .instr (.goto 0x7FF) ∧
    decode 0b00000000001000 = .instr .ret ∧ decode 0b11011110101011 = .instr (.retlw 0xAB) ∧
    decode 0b00000000001001 = .instr .retfie ∧ decode 0b00000001100100 = .instr .clrwdt ∧
    decode 0b00000001100011 = .instr .sleep ∧ decode 0b00000001100010 = .instr .option ∧
    decode 0b00000001100101 = .instr (.tris 5) ∧ decode 0b00000001100111 = .instr (.tris 7) := by
  decide

/-- 2.12: words no source assigns. -/
theorem test_decode_unassigned :
    decode 0x0001 = .unassigned 0x0001 ∧ decode 0x0061 = .unassigned 0x0061 ∧
    decode 0x007F = .unassigned 0x007F ∧ decode 0x3B00 = .unassigned 0x3B00 := by
  decide

/-- A row's bits, and one bit too many. -/
theorem test_decodeTableWord :
    decodeTableWord 14 0x07A0 = some (.addwf 0x20 .f) ∧ decodeTableWord 16 0x0064 = some .clrwdt ∧
    decodeTableWord 14 0x4000 = none ∧ decodeTableWord 14 0x3B00 = none := by
  decide

/-! ## Byte-oriented instructions (2.1 to 2.6) -/

theorem test_addwf_carries : after 0x07A0 (base 0x01 0xFF) = some (0x01, 0x00, true, true, true, 0x0101) := by decide

/-- S2. -/
theorem test_addwf_into_w : after 0x0720 (base 0x17 0xC2) = some (0xD9, 0xC2, false, false, false, 0x0101) := by decide

theorem test_andwf : after 0x05A0 (base 0x17 0xC2) = some (0x17, 0x02, false, false, false, 0x0101) := by decide

theorem test_clrf : after 0x01A0 (base 0x77 0x5A) = some (0x77, 0x00, false, false, true, 0x0101) := by decide

theorem test_clrw : after 0x0120 (base 0x5A 0x33) = some (0x00, 0x33, false, false, true, 0x0101) := by decide

/-- S13. -/
theorem test_comf : after 0x0920 (base 0x77 0x13) = some (0xEC, 0x13, false, false, false, 0x0101) := by decide

/-- S14. -/
theorem test_decf : after 0x03A0 (base 0x77 0x01) = some (0x77, 0x00, false, false, true, 0x0101) := by decide

theorem test_decfsz_skips : after 0x0BA0 (base 0x77 0x01) = some (0x77, 0x00, false, false, false, 0x0102) := by decide

theorem test_decfsz_of_zero_does_not_skip :
    after 0x0BA0 (base 0x77 0x00) = some (0x77, 0xFF, false, false, false, 0x0101) := by
  decide

/-- S17. -/
theorem test_incf : after 0x0AA0 (base 0x77 0xFF) = some (0x77, 0x00, false, false, true, 0x0101) := by decide

theorem test_incfsz_skips : after 0x0F20 (base 0x77 0xFF) = some (0x00, 0xFF, false, false, false, 0x0102) := by decide

/-- S20, corrected as spec/90_conflicts.md C8 says. -/
theorem test_iorwf : after 0x0420 (base 0x91 0x13) = some (0x93, 0x13, false, false, false, 0x0101) := by decide

theorem test_movf_tests_for_zero :
    after 0x08A0 (base 0x77 0x00) = some (0x77, 0x00, false, false, true, 0x0101) := by
  decide

theorem test_movwf : after 0x00A0 (base 0x4F 0xFF) = some (0x4F, 0x4F, false, false, false, 0x0101) := by decide

theorem test_nop : after 0x0060 (base 0x4F 0xFF) = some (0x4F, 0xFF, false, false, false, 0x0101) := by decide

/-- S28. -/
theorem test_rlf : after 0x0D20 (base 0x77 0xE6) = some (0xCC, 0xE6, true, false, false, 0x0101) := by decide

theorem test_rlf_rotates_c_in :
    after 0x0DA0 { base 0x77 0xE6 with c := true } = some (0x77, 0xCD, true, false, false, 0x0101) := by
  decide

/-- S29. -/
theorem test_rrf : after 0x0C20 (base 0x77 0xE6) = some (0x73, 0xE6, false, false, false, 0x0101) := by decide

theorem test_rrf_rotates_c_in :
    after 0x0CA0 { base 0x77 0xE6 with c := true } = some (0x77, 0xF3, false, false, false, 0x0101) := by
  decide

/-- S36. -/
theorem test_subwf_borrows : after 0x02A0 (base 0x02 0x01) = some (0x02, 0xFF, false, false, false, 0x0101) := by decide

theorem test_subwf_digit_borrow : after 0x0220 (base 0x01 0x10) = some (0x0F, 0x10, true, false, false, 0x0101) := by
  decide

/-- S37. -/
theorem test_swapf : after 0x0E20 (base 0x77 0xA5) = some (0x5A, 0xA5, false, false, false, 0x0101) := by decide

/-- S39. -/
theorem test_xorwf : after 0x06A0 (base 0xB5 0xAF) = some (0xB5, 0x1A, false, false, false, 0x0101) := by decide

/-! ## Bit-oriented instructions (2.7) -/

/-- S5. -/
theorem test_bcf : after 0x13A0 (base 0x77 0xC7) = some (0x77, 0x47, false, false, false, 0x0101) := by decide

/-- S6. -/
theorem test_bsf : after 0x17A0 (base 0x77 0x0A) = some (0x77, 0x8A, false, false, false, 0x0101) := by decide

theorem test_btfsc_skips : after 0x1BA0 (base 0x77 0x0A) = some (0x77, 0x0A, false, false, false, 0x0102) := by decide

/-- Wrap of 2.7: a skip at 0x1FFF goes to 0x0001. -/
theorem test_btfsc_wraps :
    after 0x19A0 { base 0x77 0x00 with pc := 0x1FFF } = some (0x77, 0x00, false, false, false, 0x0001) := by
  decide

theorem test_btfss_skips : after 0x1FA0 (base 0x77 0xC7) = some (0x77, 0xC7, false, false, false, 0x0102) := by decide

theorem test_btfss_does_not_skip :
    after 0x1FA0 (base 0x77 0x0A) = some (0x77, 0x0A, false, false, false, 0x0101) := by
  decide

/-! ## Literal instructions (2.1 to 2.3, 2.8) -/

theorem test_addlw : after 0x3E01 (base 0xFF 0x33) = some (0x00, 0x33, true, true, true, 0x0101) := by decide

theorem test_addlw_dont_care : after 0x3FFF (base 0x05 0x33) = some (0x04, 0x33, true, true, false, 0x0101) := by decide

/-- S3. -/
theorem test_andlw : after 0x395F (base 0xA3 0x33) = some (0x03, 0x33, false, false, false, 0x0101) := by decide

/-- S19, corrected as spec/90_conflicts.md C8 says. -/
theorem test_iorlw : after 0x3835 (base 0x9A 0x33) = some (0xBF, 0x33, false, false, false, 0x0101) := by decide

theorem test_movlw_dont_care : after 0x335A (base 0x00 0x33) = some (0x5A, 0x33, false, false, false, 0x0101) := by
  decide

/-- S33. -/
theorem test_sublw_borrows : after 0x3C02 (base 0x03 0x33) = some (0xFF, 0x33, false, false, false, 0x0101) := by decide

theorem test_sublw_digit_carry : after 0x3C7F (base 0x80 0x33) = some (0xFF, 0x33, false, true, false, 0x0101) := by
  decide

/-- S38. -/
theorem test_xorlw : after 0x3AAF (base 0xB5 0x33) = some (0x1A, 0x33, false, false, false, 0x0101) := by decide

/-! ## Control instructions (2.8 to 2.10) -/

theorem test_call_takes_pclath :
    (run 0x2123 { base 0x00 0x33 with pclath := 0x1F }).map (fun t => (t.pc, t.stack, t.cycles)) =
      some (0x1923, [0x0101], 2) := by
  decide

theorem test_call_on_full_stack :
    flt (step ((({ base 0x00 0x33 with stack := [1, 2, 3, 4, 5, 6, 7, 8] } : State)).withFetchWord 14 0x2123)) =
      some (.stackOverflow 0x0100) := by
  decide

theorem test_goto_takes_pclath :
    (run 0x2FFF { base 0x00 0x33 with pclath := 0x08 }).map (fun t => (t.pc, t.stack, t.cycles)) =
      some (0x0FFF, [], 2) := by
  decide

theorem test_return :
    (run 0x0008 { base 0x00 0x33 with stack := [0x0005, 0x0001] }).map (fun t => (t.pc, t.stack)) =
      some (0x0005, [0x0001]) := by
  decide

theorem test_return_on_empty_stack :
    flt (step ((base 0x00 0x33).withFetchWord 14 0x0008)) = some (.stackUnderflow 0x0100) := by decide

theorem test_retlw :
    (run 0x37AB { base 0x00 0x33 with stack := [0x1234, 0x0055] }).map (fun t => (t.w, t.pc, t.stack, t.cycles)) =
      some (0xAB, 0x1234, [0x0055], 2) := by
  decide

theorem test_retfie :
    (run 0x0009 { base 0x00 0x33 with stack := [0x0014], intcon := 0x10 }).map (fun t => (t.pc, t.intcon)) =
      some (0x0014, 0x90) := by
  decide

/-- S12. -/
theorem test_clrwdt :
    (run 0x0064 { base 0x00 0x33 with wdt := 0x12, wdtps := 0x34, toBit := false, pdBit := false }).map
      (fun t => (t.wdt, t.wdtps, t.toBit, t.pdBit)) = some (0x00, 0x00, true, true) := by
  decide

theorem test_clrwdt_leaves_the_prescaler_of_timer0 :
    (run 0x0064 { base 0x00 0x33 with optionReg := 0xF7, wdtps := 0x34 }).map (fun t => (t.wdt, t.wdtps)) =
      some (0x00, 0x34) := by
  decide

theorem test_sleep :
    (run 0x0063 { base 0x00 0x33 with wdt := 0x12, toBit := false }).map
      (fun t => (t.wdt, t.toBit, t.pdBit, t.sleeping, t.pc)) = some (0x00, true, false, true, 0x0101) := by
  decide

theorem test_option : (run 0x0062 (base 0x4F 0x33)).map (fun t => (t.optionReg, t.w)) = some (0x4F, 0x4F) := by decide

theorem test_tris_5 : (run 0x0065 (base 0xFF 0x33)).map (fun t => t.portA.tris) = some 0x1F := by decide

theorem test_tris_7_is_refused :
    rfs (step ((base 0xFF 0x33).withFetchWord 14 0x0067)) = some (.refusedForm 0x0100) := by decide

/-! ## Special destinations (2.11), indirect addressing (R66), interrupt entry (R238) -/

theorem test_addwf_pcl :
    (run 0x0782 { base 0x05 0x33 with pc := 0x02FE, pclath := 0x02 }).map (fun t => (t.pc, t.c, t.dc, t.z)) =
      some (0x0204, true, true, false) := by
  decide

theorem test_addwf_status :
    (run 0x0783 { base 0x01 0x33 with c := true, dc := true, z := true }).map statusByte = some 0x3A := by decide

theorem test_movwf_status :
    (run 0x0083 { base 0xFF 0x33 with pdBit := false }).map statusByte = some 0xF7 := by decide

theorem test_indirect_write :
    after 0x0080 { base 0x4F 0x33 with fsr := 0xA0 } = some (0x4F, 0x4F, false, false, false, 0x0101) := by decide

theorem test_interrupt_entry :
    (nxt (step { base 0x00 0x33 with intcon := 0xB6 })).map (fun t => (t.pc, t.stack, t.intcon)) =
      some (0x0004, [0x0100], 0x36) := by
  decide

/-! ## Timer0's agent and the RB source (R236, R242, 70_reset_and_hazards.md R270) -/

/-- T0CS = 0 and PSA = 1: the NOP's cycle wraps TMR0 and sets T0IF. -/
theorem test_nop_counts_tmr0 :
    (run 0x0000 { base 0x00 0x33 with optionReg := 0xD8, tmr0 := 0xFF }).map (fun t => (t.tmr0, t.intcon)) =
      some (0x00, 0x04) := by
  decide

/-- Two cycles of a GOTO through a prescaler of 1:2. -/
theorem test_goto_counts_the_prescaler :
    (run 0x2800 { base 0x00 0x33 with optionReg := 0xD0, tmr0 := 0x10, wdtps := 0x01 }).map
      (fun t => (t.tmr0, t.wdtps)) = some (0x11, 0x03) := by
  decide

/-- The write overrides its own cycle's clock and inhibits the next two cycles. -/
theorem test_tmr0_write_inhibits :
    (run 0x0081 { base 0x4F 0x33 with optionReg := 0xD8 }).map (fun t => (t.tmr0, t.tmr0Inhibit)) =
      some (0x4F, 2) := by
  decide

/-- The last of the two inhibited cycles, and the first after them. -/
theorem test_tmr0_stands_still_while_inhibited :
    (run 0x0000 { base 0x00 0x33 with optionReg := 0xD8, tmr0 := 0x4F, tmr0Inhibit := 1 }).map
      (fun t => (t.tmr0, t.tmr0Inhibit)) = some (0x4F, 0) ∧
    (run 0x0000 { base 0x00 0x33 with optionReg := 0xD8, tmr0 := 0x4F }).map (fun t => t.tmr0) = some 0x50 := by
  decide

/-- RBIF cleared while the mismatch stands is set again. -/
theorem test_rbif_stays_while_the_mismatch_stands :
    (run 0x100B { mismatched 0xFF with intcon := 0x01 }).map (fun t => t.intcon) = some 0x01 := by decide

/-- TRIS 6 makes the differing RB4 an input. -/
theorem test_tris_write_uncovers_the_mismatch :
    (run 0x0066 (mismatched 0x00)).map (fun t => (t.portB.tris, t.intcon)) = some (0xFF, 0x01) := by decide

/-- MOVF PORTB,W finds a new value and ends the mismatch. -/
theorem test_portb_read_finds_and_ends_the_mismatch :
    (run 0x0806 (mismatched 0xFF)).map (fun t => (t.w, t.portbLast, t.intcon)) = some (0x10, 0x10, 0x01) ∧
    (run 0x100B { base 0x10 0x33 with portbLast := 0x10, intcon := 0x01 }).map (fun t => t.intcon) = some 0x00 := by
  decide

theorem test_assemble_defaults_to_file :
    assembleValues "ADDWF" [0x02] = .ok (.addwf 0x02 .f) ∧ disassemble (.bsf 0x0B 7) = "BSF 0x0B,7" := by decide

/-! ## Witnesses of the statements' hypotheses, each clause, at boundary values -/

/-- Bank 1 selected. -/
def bank1 : State := { base 0x4F 0x33 with rp0 := true }

/-- FSR points at a data address. -/
def pointing (a : Byte) : State := { base 0x4F 0x33 with fsr := a }

/-- A program of one word, at PC. -/
def loaded (word : Nat) : State := (base 0x01 0xFF).withFetchWord 14 word

/-- A machine without INDF. -/
def noIndirect : State := { State.reset with cfg := { p84 with hasIndirect := false } }

/-- A full stack. -/
def full : State := { base 0x00 0x33 with stack := [1, 2, 3, 4, 5, 6, 7, 8] }

/-- A machine whose stack is circular. -/
def circular (st : List ProgAddr) : State :=
  { base 0x00 0x33 with cfg := { p84 with stackMode := .circular }, stack := st }

/-- An RB0 edge pending with GIE and INTE set. -/
def requested : State := { base 0x00 0x33 with intcon := 0x92 }

/-- The same on a full circular stack. -/
def circularRequested : State := { circular full.stack with intcon := 0x92 }

/-- Asleep, the Watchdog old enough. -/
def asleep : State := { base 0x00 0x33 with sleeping := true, wdtAge := 1 }

/-- Asleep before a NOP, with an RB0 edge pending and INTE set. -/
def waking : State := { asleep with intcon := 0x12, prog := [(0x0100, 0x0000)] }

/-- A boundary with one reset line. -/
def resetAt (l : ResetLine) : Boundary := { reset := some l, wdtTimeout := true, postpone := false }

/-- A boundary with a Watchdog time-out. -/
def timeoutAt : Boundary := { reset := none, wdtTimeout := true, postpone := false }

theorem test_witness_decode_of_encode :
    (Instr.tris 5).wellFormed = true ∧ (Instr.tris 7).wellFormed = true ∧
    (Instr.addwf 0x7F .f).wellFormed = true := by
  decide

theorem test_witness_step_runs :
    (loaded 0x07A0).sleeping = false ∧ (loaded 0x07A0).inputs = [] ∧ intEntryEnabled (loaded 0x07A0) = false ∧
    progRead (loaded 0x07A0).prog (loaded 0x07A0).pc = some 0x07A0 ∧ decode 0x07A0 = .instr (.addwf 0x20 .f) := by
  decide

theorem test_witness_fetch_stops :
    AtInstruction State.reset ∧ progRead State.reset.prog State.reset.pc = none ∧
    AtInstruction (loaded 0x3B00) ∧ progRead (loaded 0x3B00).prog (loaded 0x3B00).pc = some 0x3B00 ∧
    decode 0x3B00 = .unassigned 0x3B00 ∧
    AtInstruction (loaded 0x0000) ∧ progRead (loaded 0x0000).prog (loaded 0x0000).pc = some 0x0000 ∧
    decode 0x0000 = .instr .nop :=
  ⟨⟨rfl, rfl, by decide⟩, by decide, ⟨by decide, by decide, by decide⟩, by decide, by decide,
    ⟨by decide, by decide, by decide⟩, by decide, by decide⟩

theorem test_witness_step_reads_at_pc :
    progRead [(0x0100, 0x0000), (0x0101, 0x0063)] (loaded 0x0000).pc =
      progRead (loaded 0x0000).prog (loaded 0x0000).pc := by
  decide

/-- The first and the last general purpose register, of either bank; W as destination of a special register. -/
theorem test_witness_file_results :
    fileKind 0x0C State.reset = .gpr 0x0C ∧ fileKind 0x4F State.reset = .gpr 0x4F ∧
    fileKind 0x0C bank1 = .gpr 0x0C ∧ fileKind 0x00 (pointing 0xCF) = .gpr 0x4F ∧
    Readable 0x0C State.reset ∧ Readable 0x7F State.reset ∧ Readable 0x02 State.reset ∧ Readable 0x05 State.reset := by
  decide

theorem test_witness_clrw_nop_words :
    (0x0100#14 &&& 0x3F80 = 0x0100) ∧ (0x017F#14 &&& 0x3F80 = 0x0100) ∧ (0x0060#14 &&& 0x3F9F = 0) := by decide

theorem test_witness_bit_tests :
    (0x1BFF#14 &&& 0x3C00 = 0x1800) ∧ (0x1FFF#14 &&& 0x3C00 = 0x1C00) ∧ Readable 0x7F State.reset ∧
    accessRefusal State.reset.cfg (dataAddr 0x08 State.reset) = some (.refusedDevice .eedata) := by
  decide

theorem test_witness_refused_access :
    fileOperand (.clrf 0x08) = some 0x08 ∧ fileKind 0x08 State.reset = .device .eedata ∧
    fileKind 0x09 bank1 = .device .eecon2 ∧
    fileKind 0x7F { State.reset with cfg := { p84 with regmap := [] } } = .refused ∧
    fileOperand (.btfsc 0x00 7) = some 0x00 ∧ fileKind 0x00 noIndirect = .indf ∧
    noIndirect.cfg.hasIndirect = false := by
  decide

theorem test_witness_pcl_write :
    (∃ r u a, fileWrite (.movwf 0x02) bank1 ((bank1.pc + 1).setWidth 8) = some (0x02, r, u, a)) ∧
    (∃ r u a, fileWrite (.incfsz 0x02 .f) bank1 ((bank1.pc + 1).setWidth 8) = some (0x02, r, u, a)) ∧
    fileKind 0x02 bank1 = .pcl :=
  ⟨⟨_, _, _, rfl⟩, ⟨_, _, _, rfl⟩, by decide⟩

theorem test_witness_status_write :
    State.reset.cfg.statusLayout = statusLayoutP84 ∧ fileKind 0x03 State.reset = .status ∧
    (∃ r u, fileWrite (.addwf 0x03 .f) State.reset (fileValue 0x03 State.reset) = some (0x03, r, u, true)) ∧
    (∃ r u, fileWrite (.decfsz 0x03 .f) State.reset (fileValue 0x03 State.reset) = some (0x03, r, u, false)) :=
  ⟨rfl, by decide, ⟨_, _, rfl⟩, ⟨_, _, rfl⟩⟩

theorem test_witness_core_register_writes :
    fileKind 0x04 State.reset = .fsr ∧ fileKind 0x0A State.reset = .pclath ∧ fileKind 0x0B bank1 = .intcon ∧
    (∃ r u a, fileWrite (.bsf 0x04 7) State.reset State.reset.fsr = some (0x04, r, u, a)) ∧
    (∃ r u a, fileWrite (.comf 0x0A .f) State.reset (State.reset.pclath.setWidth 8) = some (0x0A, r, u, a)) ∧
    (∃ r u a, fileWrite (.bsf 0x0B 7) bank1 bank1.intcon = some (0x0B, r, u, a)) :=
  ⟨by decide, by decide, by decide, ⟨_, _, _, rfl⟩, ⟨_, _, _, rfl⟩, ⟨_, _, _, rfl⟩⟩

/-- One write that changes the prescaler's assignment and one that does not. -/
theorem test_witness_option_write :
    fileKind 0x01 bank1 = .option ∧
    (∃ r u a, fileWrite (.bcf 0x01 3) bank1 bank1.optionReg = some (0x01, r, u, a) ∧
      r.getLsbD 3 ≠ bank1.optionReg.getLsbD 3) ∧
    (∃ r u a, fileWrite (.bcf 0x01 0) bank1 bank1.optionReg = some (0x01, r, u, a) ∧
      r.getLsbD 3 = bank1.optionReg.getLsbD 3) :=
  ⟨by decide, ⟨_, _, _, rfl, by decide⟩, ⟨_, _, _, rfl, by decide⟩⟩

theorem test_witness_tmr0_write :
    fileKind 0x01 State.reset = .tmr0 ∧
    ∃ r u a, fileWrite (.clrf 0x01) State.reset State.reset.tmr0 = some (0x01, r, u, a) :=
  ⟨by decide, ⟨_, _, _, rfl⟩⟩

theorem test_witness_port_write :
    fileKind 0x05 State.reset = .port .a ∧ fileKind 0x06 State.reset = .port .b ∧
    ∃ r u a, fileWrite (.bsf 0x06 0) State.reset (portValue .b State.reset) = some (0x06, r, u, a) :=
  ⟨by decide, by decide, ⟨_, _, _, rfl⟩⟩

theorem test_witness_tris_write :
    fileKind 0x05 bank1 = .tris .a ∧ fileKind 0x06 bank1 = .tris .b ∧
    ∃ r u a, fileWrite (.clrf 0x05) bank1 (getPort .a bank1).tris = some (0x05, r, u, a) :=
  ⟨by decide, by decide, ⟨_, _, _, rfl⟩⟩

theorem test_witness_discarded_write :
    fileKind 0x07 State.reset = .unimplemented ∧ fileKind 0x50 bank1 = .unimplemented ∧
    fileKind 0x7F State.reset = .unimplemented ∧ fileKind 0x00 (pointing 0x80) = .indf ∧
    (pointing 0x80).cfg.hasIndirect = true ∧
    ∃ r u a, fileWrite (.incf 0x07 .f) State.reset 0 = some (0x07, r, u, a) :=
  ⟨by decide, by decide, by decide, by decide, by decide, ⟨_, _, _, rfl⟩⟩

theorem test_witness_data_address :
    State.reset.cfg.hasIndirect = true ∧ noIndirect.cfg.hasIndirect = false ∧ dataAddr 0x7F bank1 = 0xFF ∧
    dataAddr 0x01 State.reset = 0x01 ∧ dataAddr 0x00 (pointing 0xFF) = 0xFF := by
  decide

theorem test_witness_reads :
    fileKind 0x02 State.reset = .pcl ∧ fileKind 0x0A State.reset = .pclath ∧ fileKind 0x04 State.reset = .fsr ∧
    fileKind 0x0B State.reset = .intcon ∧ fileKind 0x01 bank1 = .option ∧ fileKind 0x01 State.reset = .tmr0 ∧
    fileKind 0x4F State.reset = .gpr 0x4F ∧ fileKind 0x06 bank1 = .tris .b ∧
    fileKind 0x03 bank1 = .status ∧ bank1.cfg.statusLayout = statusLayoutP84 ∧
    fileKind 0x00 (pointing 0x80) = .indf ∧ fileKind 0x00 (pointing 0x00) = .indf ∧
    fileKind 0x50 State.reset = .unimplemented ∧ ∀ p, fileKind 0x50 State.reset ≠ .port p :=
  ⟨by decide, by decide, by decide, by decide, by decide, by decide, by decide, by decide, by decide, by decide,
    by decide, by decide, by decide, fun p => by cases p <;> decide⟩

theorem test_witness_port_read :
    fileKind 0x05 State.reset = .port .a ∧ fileKind 0x06 (applyEnv (.pins .b 0xA5) State.reset) = .port .b ∧
    (getPort .b (applyEnv (.pins .b 0xA5) State.reset)).pins = some 0xA5 := by
  decide

theorem test_witness_literal_and_jump_words :
    (0x3FFF#14 &&& 0x3E00 = 0x3E00) ∧ (0x3DFF#14 &&& 0x3E00 = 0x3C00) ∧ (0x39FF#14 &&& 0x3F00 = 0x3900) ∧
    (0x38FF#14 &&& 0x3F00 = 0x3800) ∧ (0x3AFF#14 &&& 0x3F00 = 0x3A00) ∧ (0x33FF#14 &&& 0x3C00 = 0x3000) ∧
    (0x2FFF#14 &&& 0x3800 = 0x2800) ∧ (0x27FF#14 &&& 0x3800 = 0x2000) ∧ (0x37FF#14 &&& 0x3C00 = 0x3400) := by
  decide

theorem test_witness_call :
    (base 0x00 0x33).stack.length < (base 0x00 0x33).cfg.stackDepth ∧ full.cfg.stackDepth ≤ full.stack.length ∧
    full.cfg.stackMode = .fault ∧ (circular full.stack).cfg.stackDepth ≤ (circular full.stack).stack.length ∧
    (circular full.stack).cfg.stackMode = .circular := by
  decide

theorem test_witness_returns :
    full.stack = 1 :: [2, 3, 4, 5, 6, 7, 8] ∧ State.reset.stack = [] ∧ State.reset.cfg.stackMode = .fault ∧
    (circular []).stack = [] ∧ (circular []).cfg.stackMode = .circular := by
  decide

theorem test_witness_entry_then_retfie :
    requested.stack.length < requested.cfg.stackDepth ∧ requested.inputs = [] ∧ intEntryEnabled requested = true := by
  decide

theorem test_witness_sleep :
    State.reset.cfg.sleepNopIfPending = false ∧
    (({ requested with cfg := { p84 with sleepNopIfPending := true } } : State).cfg.sleepNopIfPending = true ∧
      intReq { requested with cfg := { p84 with sleepNopIfPending := true } } = true) ∧
    intReq State.reset = false := by
  decide

theorem test_witness_option_instruction :
    (base 0x0F 0x33).w.getLsbD 3 = (base 0x0F 0x33).optionReg.getLsbD 3 := by decide

theorem test_witness_tris :
    State.reset.cfg.portA = some 0x1F ∧ State.reset.cfg.portB = some 0xFF ∧ State.reset.cfg.portC = none ∧
    ({ p84 with portA := none, portB := none, portC := some 0xFF } : Config).portA = none ∧
    ({ p84 with portA := none, portB := none, portC := some 0xFF } : Config).portB = none ∧
    ({ p84 with portA := none, portB := none, portC := some 0xFF } : Config).portC = some 0xFF := by
  decide

/-- An instruction that completes, lists Z alone, and does not write STATUS. -/
theorem test_witness_flags :
    (∃ t, exec (.clrf 0x20) (base 0x00 0x33) = .next t) ∧ StatusFlag.c ∉ statusAffected (.clrf 0x20) ∧
    ¬ WritesKind (.clrf 0x20) (base 0x00 0x33) .status :=
  ⟨⟨_, rfl⟩, by decide, fun ⟨_, _, _, _, h, hk⟩ => by cases h; revert hk; decide⟩

theorem test_witness_to_pd :
    (∃ t, exec (.movwf 0x03) (base 0x00 0x33) = .next t) ∧ Instr.movwf 0x03 ≠ .clrwdt ∧
    Instr.movwf 0x03 ≠ .sleep :=
  ⟨⟨_, rfl⟩, by decide, by decide⟩

/-- NOP does not assign PC. -/
theorem nop_assigns_no_pc (s : State) : ¬ AssignsPc .nop s := by
  rintro ⟨_, _, _, _, h, _⟩
  cases h

/-- At the last program address; a skip whose condition does not hold. -/
theorem test_witness_default_successor :
    (∃ t, exec .nop { State.reset with pc := 0x1FFF } = .next t) ∧
    ¬ AssignsPc .nop { State.reset with pc := 0x1FFF } ∧
    (∃ t, exec (.decfsz 0x20 .f) (base 0x00 0x02) = .next t) ∧ ¬ AssignsPc (.decfsz 0x20 .f) (base 0x00 0x02) :=
  ⟨⟨_, rfl⟩, nop_assigns_no_pc _, ⟨_, rfl⟩, by unfold AssignsPc; decide⟩

theorem test_witness_core_registers :
    (∃ t, exec (.movwf 0x20) (base 0x4F 0x33) = .next t) ∧ writesW (.movwf 0x20) = false ∧
    usesStack (.movwf 0x20) = false ∧ Instr.movwf 0x20 ≠ .sleep ∧ Instr.movwf 0x20 ≠ .retfie ∧
    ∀ k ∈ [RegKind.pclath, .intcon, .fsr], ¬ WritesKind (.movwf 0x20) (base 0x4F 0x33) k :=
  ⟨⟨_, rfl⟩, by decide, by decide, by decide, by decide,
    fun _ hm ⟨_, _, _, _, h, hk⟩ => by cases h; subst hk; revert hm; decide⟩

theorem test_witness_only_addressed :
    (∃ t, exec (.clrf 0x20) (base 0x00 0x33) = .next t) ∧
    ¬ WritesKind (.clrf 0x20) (base 0x00 0x33) (.gpr 0x21) :=
  ⟨⟨_, rfl⟩, fun ⟨_, _, _, _, h, hk⟩ => by cases h; revert hk; decide⟩

theorem test_witness_next_states :
    (∃ t, exec .sleep State.reset = .next t) ∧ (∃ t, step (State.reset.withFetchWord 14 0x0063) = .next t) :=
  ⟨⟨_, rfl⟩, ⟨_, rfl⟩⟩

theorem test_witness_interrupt_entry :
    requested.cfg.intSources = p84.intSources ∧ requested.inputs = [] ∧ intEntryEnabled requested = true ∧
    requested.stack.length < requested.cfg.stackDepth ∧
    (intEntryEnabled { full with intcon := 0x92 } = true ∧
      ({ full with intcon := 0x92 } : State).cfg.stackDepth ≤ ({ full with intcon := 0x92 } : State).stack.length ∧
      ({ full with intcon := 0x92 } : State).cfg.stackMode = .fault) ∧
    (intEntryEnabled circularRequested = true ∧ circularRequested.inputs = [] ∧
      circularRequested.cfg.stackDepth ≤ circularRequested.stack.length ∧
      circularRequested.cfg.stackMode = .circular) := by
  decide

theorem test_witness_precedence :
    (resetAt .mclr).reset = some .mclr ∧ timeoutAt.reset = none ∧ timeoutAt.wdtTimeout = true ∧
    wdtDue asleep = true ∧ quietBoundary.reset = none ∧ quietBoundary.wdtTimeout = false ∧
    quietBoundary.postpone = false ∧ intEntryEnabled requested = true ∧ wdtDue State.reset = false ∧
    State.reset.sleeping = false ∧ intEntryEnabled State.reset = false ∧ postponedBoundary.postpone = true := by
  decide

theorem test_witness_environment_step :
    ({ State.reset with inputs := [.env (.timer0Edge true)] } : State).inputs = .env (.timer0Edge true) :: [] ∧
    State.reset.cfg.intSources = p84.intSources := by
  decide

/-- T0CS = 0 and 1, PSA = 1 and 0, TMR0 about to wrap, the prescaler about to pass, inhibited or not. -/
theorem test_witness_timer0 :
    (timing 0xD8).sleeping = false ∧ (timing 0xD8).optionReg.getLsbD 5 = false ∧
    (timing 0xD8).optionReg.getLsbD 3 = true ∧ (timing 0xD8).cfg.intSources = p84.intSources ∧
    256 ≤ (timing 0xD8).tmr0.toNat + ((timing 0xD8).timer0Due - (timing 0xD8).tmr0Inhibit) ∧
    (timing 0xD7).optionReg.getLsbD 5 = false ∧ (timing 0xD7).optionReg.getLsbD 3 = false ∧
    (timing 0xD7).tmr0Inhibit = 0 ∧ (timing 0xFF).optionReg.getLsbD 5 = true ∧
    { timing 0xD8 with sleeping := true }.sleeping = true := by
  decide

/-- RB4 and RB7 differ, and only RB3 differs; a read that found RB7 changed; pins of which nothing is known. -/
theorem test_witness_rb_change :
    State.reset.cfg.intSources = p84.intSources ∧
    (State.reset.portB.tris.getLsbD 4 = true ∧ (0x10#8).getLsbD 4 ≠ State.reset.portbLast.getLsbD 4) ∧
    (State.reset.portB.tris.getLsbD 7 = true ∧ (0x80#8).getLsbD 7 ≠ State.reset.portbLast.getLsbD 7) ∧
    (∀ j < 8, 4 ≤ j → State.reset.portB.tris.getLsbD j = true →
      (0x0F#8).getLsbD j = State.reset.portbLast.getLsbD j) :=
  ⟨rfl, by decide, by decide, by decide⟩

theorem test_witness_rb_differs :
    RbDiffers 0x00 (mismatched 0xFF) ∧ RbDiffers 0x80 State.reset ∧ ¬ RbDiffers 0x00 (mismatched 0x0F) ∧
    ¬ RbDiffers 0x00 State.reset := by
  refine ⟨⟨4, by decide, by decide, by decide, .inl ⟨0x10, rfl, by decide⟩⟩,
    ⟨7, by decide, by decide, by decide, .inr (by decide)⟩, ?_, ?_⟩
  · rintro ⟨j, h4, h8, ht, -⟩
    have hj : j = 4 ∨ j = 5 ∨ j = 6 ∨ j = 7 := by omega
    rcases hj with rfl | rfl | rfl | rfl <;> revert ht <;> decide
  · rintro ⟨j, -, -, -, ⟨v, hv, -⟩ | h⟩
    · cases hv
    · exact h rfl

theorem test_witness_wake_up :
    asleep.cfg.intSources = p84.intSources ∧ asleep.cfg.wakeSources = p84.wakeSources ∧ asleep.inputs = [] ∧ asleep.sleeping = true ∧ wakeReq asleep = false ∧
    waking.inputs = [] ∧ waking.sleeping = true ∧ wakeReq waking = true ∧
    progRead waking.prog waking.pc = some 0x0000 ∧ decode 0x0000 = .instr .nop := by
  decide

theorem test_witness_watchdog :
    asleep.cfg.wdtEnabled = true ∧ 1 ≤ asleep.wdtAge ∧ asleep.cfg.wdtMinCycles ≤ asleep.wdtAge ∧
    timeoutAt.reset = none ∧ timeoutAt.wdtTimeout = true ∧
    ({ asleep with sleeping := false } : State).sleeping = false ∧ State.reset.wdtAge < State.reset.cfg.wdtMinCycles ∧
    ({ p84 with wdtEnabled := false } : Config).wdtEnabled = false := by
  decide

theorem test_witness_resets :
    (resetAt .mclr).reset = some .mclr ∧ asleep.sleeping = true ∧ State.reset.sleeping = false ∧
    ResetCause.mclr ≠ .powerOn ∧ ResetCause.mclrSleep ≠ .powerOn ∧ ResetCause.wdtReset ≠ .powerOn ∧
    (resetAt .powerOn).reset = some .powerOn := by
  decide

/-- The invariant holds of a full stack, and a step is taken from there. -/
theorem test_witness_invariant :
    MachineInv (full.withFetchWord 14 0x0008) ∧ ∃ t, step (full.withFetchWord 14 0x0008) = .next t :=
  ⟨by decide, ⟨_, rfl⟩⟩

end Sys2Proof.Tests
end

/-! SUPPORT and O2. A word is put together again from its fields, so a word that decodes to an instruction is that
instruction's canonical word but for the don't-care bits; and a word equal to a canonical word but for the don't-care
bits differs from it in one field alone, the opcode or `f`, which the decoder reads only in part (R107, R108). -/

namespace Sys2Proof.Canonical

/-- The word is the canonical word of a well-formed instruction, but for its don't-care bits (R107). -/
def CanonicalFor (w : InstrWord) (i : Instr) : Prop :=
  i.wellFormed = true ∧ w &&& ~~~(dontCareBits i) = encode i

/-! ## A word is put together from its fields (R101 to R104, R106) -/

section Fields

variable {w : InstrWord}

theorem append_inj {m n : Nat} {a c : BitVec m} {b d : BitVec n} (h : a ++ b = c ++ d) : a = c ∧ b = d := by
  have hhi := congrArg (BitVec.extractLsb' n m) h
  have hlo := congrArg (BitVec.extractLsb' 0 n) h
  rw [BitVec.extractLsb'_append_eq_left, BitVec.extractLsb'_append_eq_left] at hhi
  rw [BitVec.extractLsb'_append_eq_right, BitVec.extractLsb'_append_eq_right] at hlo
  exact ⟨hhi, hlo⟩

/-! One field after the other, from the top: two adjacent fields are one. -/

theorem eq_append_fieldK8 (w : InstrWord) : w = w.extractLsb' 12 2 ++ w.extractLsb' 8 4 ++ fieldK8 w := by
  rw [fieldK8, BitVec.extractLsb'_append_extractLsb'_eq_extractLsb' (show 12 = 8 + 4 from rfl),
    BitVec.extractLsb'_append_extractLsb'_eq_extractLsb' (show 8 = 0 + 8 from rfl)]
  exact BitVec.extractLsb'_eq_self.symm

theorem eq_append_fieldK11 (w : InstrWord) : w = w.extractLsb' 12 2 ++ w.extractLsb' 11 1 ++ fieldK11 w := by
  rw [fieldK11, BitVec.extractLsb'_append_extractLsb'_eq_extractLsb' (show 12 = 11 + 1 from rfl),
    BitVec.extractLsb'_append_extractLsb'_eq_extractLsb' (show 11 = 0 + 11 from rfl)]
  exact BitVec.extractLsb'_eq_self.symm

theorem eq_append_fieldB (w : InstrWord) :
    w = w.extractLsb' 12 2 ++ w.extractLsb' 10 2 ++ fieldB w ++ fieldF w := by
  rw [fieldB, fieldF, BitVec.extractLsb'_append_extractLsb'_eq_extractLsb' (show 12 = 10 + 2 from rfl),
    BitVec.extractLsb'_append_extractLsb'_eq_extractLsb' (show 10 = 7 + 3 from rfl),
    BitVec.extractLsb'_append_extractLsb'_eq_extractLsb' (show 7 = 0 + 7 from rfl)]
  exact BitVec.extractLsb'_eq_self.symm

theorem eq_append_fieldF (w : InstrWord) :
    w = w.extractLsb' 12 2 ++ w.extractLsb' 8 4 ++ w.extractLsb' 7 1 ++ fieldF w := by
  rw [fieldF, BitVec.extractLsb'_append_extractLsb'_eq_extractLsb' (show 12 = 8 + 4 from rfl),
    BitVec.extractLsb'_append_extractLsb'_eq_extractLsb' (show 8 = 7 + 1 from rfl),
    BitVec.extractLsb'_append_extractLsb'_eq_extractLsb' (show 7 = 0 + 7 from rfl)]
  exact BitVec.extractLsb'_eq_self.symm

theorem extractLsb'_one_eq {j : Nat} {d : BitVec 1} (h : w.getLsbD j = d.getLsbD 0) : w.extractLsb' j 1 = d := by
  ext k hk
  obtain rfl : k = 0 := by omega
  rw [BitVec.getElem_extractLsb', ← BitVec.getLsbD_eq_getElem]
  exact h

/-- A byte-oriented word is given by its opcode, bit 7 and `f`. -/
theorem eq_encodeByte_bit7 {op : BitVec 4} {d : BitVec 1} (hg : (w.extractLsb' 12 2).toNat = 0)
    (ho : (w.extractLsb' 8 4).toNat = op.toNat) (h7 : w.getLsbD 7 = d.getLsbD 0) :
    w = encodeByte op d (fieldF w) := by
  rw [encodeByte, ← extractLsb'_one_eq h7, ← BitVec.eq_of_toNat_eq ho,
    ← (BitVec.eq_of_toNat_eq hg : w.extractLsb' 12 2 = 0b00#2)]
  exact eq_append_fieldF w

theorem bit7_eq_destBit_fieldD (w : InstrWord) : w.getLsbD 7 = (destBit (fieldD w)).getLsbD 0 := by
  rw [fieldD]
  cases w.getLsbD 7 <;> rfl

/-- A byte-oriented word is given by its opcode, `d` and `f`. -/
theorem eq_encodeByte {op : BitVec 4} (hg : (w.extractLsb' 12 2).toNat = 0)
    (ho : (w.extractLsb' 8 4).toNat = op.toNat) : w = encodeByte op (destBit (fieldD w)) (fieldF w) :=
  eq_encodeByte_bit7 hg ho (bit7_eq_destBit_fieldD w)

/-- A bit-oriented word is given by its opcode, `b` and `f`. -/
theorem eq_encodeBit {op : BitVec 2} (hg : (w.extractLsb' 12 2).toNat = 1)
    (ho : (w.extractLsb' 10 2).toNat = op.toNat) : w = encodeBit op (fieldB w) (fieldF w) := by
  rw [encodeBit, ← BitVec.eq_of_toNat_eq ho, ← (BitVec.eq_of_toNat_eq hg : w.extractLsb' 12 2 = 0b01#2)]
  exact eq_append_fieldB w

/-- A jump is given by bit 11 and its target. -/
theorem eq_encodeJump {op : BitVec 1} (hg : (w.extractLsb' 12 2).toNat = 2) (h11 : w.getLsbD 11 = op.getLsbD 0) :
    w = encodeJump op (fieldK11 w) := by
  rw [encodeJump, ← extractLsb'_one_eq h11, ← (BitVec.eq_of_toNat_eq hg : w.extractLsb' 12 2 = 0b10#2)]
  exact eq_append_fieldK11 w

/-- A literal word is given by its opcode and its literal. -/
theorem eq_encodeLiteral {op : BitVec 4} (hg : (w.extractLsb' 12 2).toNat = 3)
    (ho : (w.extractLsb' 8 4).toNat = op.toNat) : w = encodeLiteral op (fieldK8 w) := by
  rw [encodeLiteral, ← BitVec.eq_of_toNat_eq ho, ← (BitVec.eq_of_toNat_eq hg : w.extractLsb' 12 2 = 0b11#2)]
  exact eq_append_fieldK8 w

end Fields

/-! ## Don't-care bits in one field (R107) -/

/-- Clearing bits of the opcode of a literal word gives a canonical word exactly where the word is that literal word
with an opcode that differs in those bits alone. -/
theorem clearOpcode_eq_iff {w : InstrWord} {m op : BitVec 4} {k : Byte} :
    w &&& ~~~(0#2 ++ m ++ 0#8) = encodeLiteral op k ↔ ∃ op', w = encodeLiteral op' k ∧ op' &&& ~~~m = op := by
  have clear : ∀ (g : BitVec 2) (o : BitVec 4) (k : Byte),
      (g ++ o ++ k) &&& ~~~(0#2 ++ m ++ 0#8) = g ++ (o &&& ~~~m) ++ k := by
    intro g o k
    simp only [BitVec.not_append, BitVec.and_append, BitVec.not_zero, BitVec.and_allOnes]
  constructor
  · intro h
    rw [eq_append_fieldK8 w, clear] at h
    obtain ⟨hgo, hk⟩ := append_inj h
    obtain ⟨hg, ho⟩ := append_inj hgo
    exact ⟨w.extractLsb' 8 4, by rw [encodeLiteral, ← hg, ← hk]; exact eq_append_fieldK8 w, ho⟩
  · rintro ⟨op', rfl, rfl⟩
    exact clear _ _ _

/-- Clearing bits of `f` of a byte-oriented word gives a canonical word exactly where the word is that byte-oriented
word with an `f` that differs in those bits alone. -/
theorem clearF_eq_iff {w : InstrWord} {op : BitVec 4} {d : BitVec 1} {m f : FileAddr} :
    w &&& ~~~(0#2 ++ 0#4 ++ 0#1 ++ m) = encodeByte op d f ↔ ∃ f', w = encodeByte op d f' ∧ f' &&& ~~~m = f := by
  have clear : ∀ (g : BitVec 2) (o : BitVec 4) (d : BitVec 1) (f : FileAddr),
      (g ++ o ++ d ++ f) &&& ~~~(0#2 ++ 0#4 ++ 0#1 ++ m) = g ++ o ++ d ++ (f &&& ~~~m) := by
    intro g o d f
    simp only [BitVec.not_append, BitVec.and_append, BitVec.not_zero, BitVec.and_allOnes]
  constructor
  · intro h
    rw [eq_append_fieldF w, clear] at h
    obtain ⟨hgod, hf⟩ := append_inj h
    exact ⟨fieldF w, by rw [encodeByte, ← hgod]; exact eq_append_fieldF w, hf⟩
  · rintro ⟨f', rfl, rfl⟩
    exact clear _ _ _ _

/-! ## A word that decodes is canonical up to the don't-care bits -/

section DecodedIsCanonical

variable {w : InstrWord} {i : Instr}

theorem CanonicalFor.of_eq_encode (hwf : i.wellFormed = true) (hm : dontCareBits i = 0) (hw : w = encode i) :
    CanonicalFor w i := by
  refine ⟨hwf, ?_⟩
  rw [hm, hw]
  exact BitVec.and_allOnes

/-- A literal instruction whose opcode's don't-care bits are `m`, on a word with any opcode `op` of its row. -/
theorem CanonicalFor.of_literal {m op op₀ : BitVec 4} (hg : (w.extractLsb' 12 2).toNat = 3)
    (ho : (w.extractLsb' 8 4).toNat = op.toNat) (hop : op &&& ~~~m = op₀) (hwf : i.wellFormed = true)
    (hm : dontCareBits i = 0#2 ++ m ++ 0#8) (hi : encode i = encodeLiteral op₀ (fieldK8 w)) : CanonicalFor w i :=
  ⟨hwf, by rw [hm, hi]; exact clearOpcode_eq_iff.2 ⟨op, eq_encodeLiteral hg ho, hop⟩⟩

/-- The block `00 0000 0xxx xxxx` holds no operand but the TRIS number, so each of its instructions has given words. -/
theorem canonical_of_decodeControl (hg : (w.extractLsb' 12 2).toNat = 0) (ho : (w.extractLsb' 8 4).toNat = 0)
    (h7 : w.getLsbD 7 = false) (h : decodeControl w = .instr i) : CanonicalFor w i := by
  have word : ∀ f : FileAddr, (fieldF w).toNat = f.toNat → w = encodeByte 0 0 f := by
    intro f hf
    rw [← BitVec.eq_of_toNat_eq hf]
    exact eq_encodeByte_bit7 (op := 0x0) (d := 0) hg ho h7
  unfold decodeControl at h
  split at h
  · next hf => cases h; rw [word 0x00 hf]; exact ⟨rfl, by decide⟩
  · next hf => cases h; rw [word 0x20 hf]; exact ⟨rfl, by decide⟩
  · next hf => cases h; rw [word 0x40 hf]; exact ⟨rfl, by decide⟩
  · next hf => cases h; rw [word 0x60 hf]; exact ⟨rfl, by decide⟩
  · next hf => cases h; rw [word 0x08 hf]; exact ⟨rfl, by decide⟩
  · next hf => cases h; rw [word 0x09 hf]; exact ⟨rfl, by decide⟩
  · next hf => cases h; rw [word 0x62 hf]; exact ⟨rfl, by decide⟩
  · next hf => cases h; rw [word 0x63 hf]; exact ⟨rfl, by decide⟩
  · next hf => cases h; rw [word 0x64 hf]; exact ⟨rfl, by decide⟩
  · next hf => cases h; rw [word 0x65 hf]; exact ⟨by decide, by decide⟩
  · next hf => cases h; rw [word 0x66 hf]; exact ⟨by decide, by decide⟩
  · next hf => cases h; rw [word 0x67 hf]; exact ⟨by decide, by decide⟩
  · cases h

theorem canonical_of_decodeByte (hg : (w.extractLsb' 12 2).toNat = 0) (h : decodeByte w = .instr i) :
    CanonicalFor w i := by
  unfold decodeByte at h
  split at h
  · next ho =>
    split at h
    · next h7 => cases h; exact .of_eq_encode rfl rfl (eq_encodeByte_bit7 (op := 0x0) (d := 1) hg ho h7)
    · next h7 => exact canonical_of_decodeControl hg ho (Bool.eq_false_iff.2 h7) h
  · next ho =>
    split at h
    · next h7 => cases h; exact .of_eq_encode rfl rfl (eq_encodeByte_bit7 (op := 0x1) (d := 1) hg ho h7)
    · next h7 =>
      have hw : w = encodeByte 0x1 0 (fieldF w) :=
        eq_encodeByte_bit7 (op := 0x1) (d := 0) hg ho (Bool.eq_false_iff.2 h7)
      cases h
      exact ⟨rfl, (clearF_eq_iff (m := 0x7F) (f := 0)).2 ⟨fieldF w, hw, BitVec.and_zero⟩⟩
  · next ho => cases h; exact .of_eq_encode rfl rfl (eq_encodeByte (op := 0x2) hg ho)
  · next ho => cases h; exact .of_eq_encode rfl rfl (eq_encodeByte (op := 0x3) hg ho)
  · next ho => cases h; exact .of_eq_encode rfl rfl (eq_encodeByte (op := 0x4) hg ho)
  · next ho => cases h; exact .of_eq_encode rfl rfl (eq_encodeByte (op := 0x5) hg ho)
  · next ho => cases h; exact .of_eq_encode rfl rfl (eq_encodeByte (op := 0x6) hg ho)
  · next ho => cases h; exact .of_eq_encode rfl rfl (eq_encodeByte (op := 0x7) hg ho)
  · next ho => cases h; exact .of_eq_encode rfl rfl (eq_encodeByte (op := 0x8) hg ho)
  · next ho => cases h; exact .of_eq_encode rfl rfl (eq_encodeByte (op := 0x9) hg ho)
  · next ho => cases h; exact .of_eq_encode rfl rfl (eq_encodeByte (op := 0xA) hg ho)
  · next ho => cases h; exact .of_eq_encode rfl rfl (eq_encodeByte (op := 0xB) hg ho)
  · next ho => cases h; exact .of_eq_encode rfl rfl (eq_encodeByte (op := 0xC) hg ho)
  · next ho => cases h; exact .of_eq_encode rfl rfl (eq_encodeByte (op := 0xD) hg ho)
  · next ho => cases h; exact .of_eq_encode rfl rfl (eq_encodeByte (op := 0xE) hg ho)
  · have ho : (w.extractLsb' 8 4).toNat = 0xF := by have := (w.extractLsb' 8 4).isLt; grind
    cases h; exact .of_eq_encode rfl rfl (eq_encodeByte (op := 0xF) hg ho)

theorem canonical_of_decodeBit (hg : (w.extractLsb' 12 2).toNat = 1) (h : decodeBit w = .instr i) :
    CanonicalFor w i := by
  unfold decodeBit at h
  split at h
  · next ho => cases h; exact .of_eq_encode rfl rfl (eq_encodeBit (op := 0) hg ho)
  · next ho => cases h; exact .of_eq_encode rfl rfl (eq_encodeBit (op := 1) hg ho)
  · next ho => cases h; exact .of_eq_encode rfl rfl (eq_encodeBit (op := 2) hg ho)
  · have ho : (w.extractLsb' 10 2).toNat = 3 := by have := (w.extractLsb' 10 2).isLt; grind
    cases h; exact .of_eq_encode rfl rfl (eq_encodeBit (op := 3) hg ho)

theorem canonical_of_decodeJump (hg : (w.extractLsb' 12 2).toNat = 2) (h : decodeJump w = .instr i) :
    CanonicalFor w i := by
  unfold decodeJump at h
  split at h
  · next h11 => cases h; exact .of_eq_encode rfl rfl (eq_encodeJump (op := 1) hg h11)
  · next h11 => cases h; exact .of_eq_encode rfl rfl (eq_encodeJump (op := 0) hg (Bool.eq_false_iff.2 h11))

theorem canonical_of_decodeLiteral (hg : (w.extractLsb' 12 2).toNat = 3) (h : decodeLiteral w = .instr i) :
    CanonicalFor w i := by
  unfold decodeLiteral at h
  split at h
  · next ho => cases h; exact .of_literal (m := 3) (op := 0x0) hg ho rfl rfl rfl rfl
  · next ho => cases h; exact .of_literal (m := 3) (op := 0x1) hg ho rfl rfl rfl rfl
  · next ho => cases h; exact .of_literal (m := 3) (op := 0x2) hg ho rfl rfl rfl rfl
  · next ho => cases h; exact .of_literal (m := 3) (op := 0x3) hg ho rfl rfl rfl rfl
  · next ho => cases h; exact .of_literal (m := 3) (op := 0x4) hg ho rfl rfl rfl rfl
  · next ho => cases h; exact .of_literal (m := 3) (op := 0x5) hg ho rfl rfl rfl rfl
  · next ho => cases h; exact .of_literal (m := 3) (op := 0x6) hg ho rfl rfl rfl rfl
  · next ho => cases h; exact .of_literal (m := 3) (op := 0x7) hg ho rfl rfl rfl rfl
  · next ho => cases h; exact .of_eq_encode rfl rfl (eq_encodeLiteral (op := 0x8) hg ho)
  · next ho => cases h; exact .of_eq_encode rfl rfl (eq_encodeLiteral (op := 0x9) hg ho)
  · next ho => cases h; exact .of_eq_encode rfl rfl (eq_encodeLiteral (op := 0xA) hg ho)
  · cases h
  · next ho => cases h; exact .of_literal (m := 1) (op := 0xC) hg ho rfl rfl rfl rfl
  · next ho => cases h; exact .of_literal (m := 1) (op := 0xD) hg ho rfl rfl rfl rfl
  · have ho : (w.extractLsb' 8 4).toNat = 0xE ∨ (w.extractLsb' 8 4).toNat = 0xF := by
      have := (w.extractLsb' 8 4).isLt; grind
    cases h
    rcases ho with ho | ho
    · exact .of_literal (m := 1) (op := 0xE) hg ho rfl rfl rfl rfl
    · exact .of_literal (m := 1) (op := 0xF) hg ho rfl rfl rfl rfl

/-- A word that decodes is, but for the don't-care bits, the canonical word of what it decodes to. -/
theorem canonical_of_decode (h : decode w = .instr i) : CanonicalFor w i := by
  unfold decode at h
  split at h
  · next hg => exact canonical_of_decodeByte hg h
  · next hg => exact canonical_of_decodeBit hg h
  · next hg => exact canonical_of_decodeJump hg h
  · have hg : (w.extractLsb' 12 2).toNat = 3 := by have := (w.extractLsb' 12 2).isLt; grind
    exact canonical_of_decodeLiteral hg h

end DecodedIsCanonical

/-! ## A word canonical up to the don't-care bits decodes -/

section CanonicalDecodes

variable {op : BitVec 4} {k : Byte}

/-- The canonical word of every well-formed instruction decodes to it: the family RoundTrip, put together. -/
theorem roundTrip (i : Instr) : Laws.RoundTrip.Statement i :=
  match i with
  | .addwf f d => Laws.RoundTrip.addwf f d
  | .andwf f d => Laws.RoundTrip.andwf f d
  | .clrf f => Laws.RoundTrip.clrf f
  | .clrw => Laws.RoundTrip.clrw
  | .comf f d => Laws.RoundTrip.comf f d
  | .decf f d => Laws.RoundTrip.decf f d
  | .decfsz f d => Laws.RoundTrip.decfsz f d
  | .incf f d => Laws.RoundTrip.incf f d
  | .incfsz f d => Laws.RoundTrip.incfsz f d
  | .iorwf f d => Laws.RoundTrip.iorwf f d
  | .movf f d => Laws.RoundTrip.movf f d
  | .movwf f => Laws.RoundTrip.movwf f
  | .nop => Laws.RoundTrip.nop
  | .rlf f d => Laws.RoundTrip.rlf f d
  | .rrf f d => Laws.RoundTrip.rrf f d
  | .subwf f d => Laws.RoundTrip.subwf f d
  | .swapf f d => Laws.RoundTrip.swapf f d
  | .xorwf f d => Laws.RoundTrip.xorwf f d
  | .bcf f b => Laws.RoundTrip.bcf f b
  | .bsf f b => Laws.RoundTrip.bsf f b
  | .btfsc f b => Laws.RoundTrip.btfsc f b
  | .btfss f b => Laws.RoundTrip.btfss f b
  | .addlw k => Laws.RoundTrip.addlw k
  | .andlw k => Laws.RoundTrip.andlw k
  | .call k => Laws.RoundTrip.call k
  | .clrwdt => Laws.RoundTrip.clrwdt
  | .goto k => Laws.RoundTrip.goto k
  | .iorlw k => Laws.RoundTrip.iorlw k
  | .movlw k => Laws.RoundTrip.movlw k
  | .retfie => Laws.RoundTrip.retfie
  | .retlw k => Laws.RoundTrip.retlw k
  | .ret => Laws.RoundTrip.ret
  | .sleep => Laws.RoundTrip.sleep
  | .sublw k => Laws.RoundTrip.sublw k
  | .xorlw k => Laws.RoundTrip.xorlw k
  | .option => Laws.RoundTrip.option
  | .tris n => Laws.RoundTrip.tris n

/-- Where an encoding has no don't-care bit, the canonical word is the only one. -/
theorem decode_of_no_dontCareBits {w : InstrWord} {i : Instr} (hm : dontCareBits i = 0) (h : CanonicalFor w i) :
    decode w = .instr i := by
  obtain ⟨hwf, hw⟩ := h
  rw [hm] at hw
  have hwe : w = encode i := BitVec.and_allOnes.symm.trans hw
  rw [hwe]
  exact roundTrip i hwf

theorem decode_movlw_opcode (h : op &&& ~~~3 = 0) : decode (encodeLiteral op k) = .instr (.movlw k) := by
  have hop : op = 0x0 ∨ op = 0x1 ∨ op = 0x2 ∨ op = 0x3 := by revert op; decide
  simp only [decode_encodeLiteral, decodeLiteral, encodeLiteral_opcode, encodeLiteral_fieldK8]
  rcases hop with rfl | rfl | rfl | rfl <;> rfl

theorem decode_retlw_opcode (h : op &&& ~~~3 = 4) : decode (encodeLiteral op k) = .instr (.retlw k) := by
  have hop : op = 0x4 ∨ op = 0x5 ∨ op = 0x6 ∨ op = 0x7 := by revert op; decide
  simp only [decode_encodeLiteral, decodeLiteral, encodeLiteral_opcode, encodeLiteral_fieldK8]
  rcases hop with rfl | rfl | rfl | rfl <;> rfl

theorem decode_sublw_opcode (h : op &&& ~~~1 = 0xC) : decode (encodeLiteral op k) = .instr (.sublw k) := by
  have hop : op = 0xC ∨ op = 0xD := by revert op; decide
  simp only [decode_encodeLiteral, decodeLiteral, encodeLiteral_opcode, encodeLiteral_fieldK8]
  rcases hop with rfl | rfl <;> rfl

theorem decode_addlw_opcode (h : op &&& ~~~1 = 0xE) : decode (encodeLiteral op k) = .instr (.addlw k) := by
  have hop : op = 0xE ∨ op = 0xF := by revert op; decide
  simp only [decode_encodeLiteral, decodeLiteral, encodeLiteral_opcode, encodeLiteral_fieldK8]
  rcases hop with rfl | rfl <;> rfl

theorem decode_clrw_f (f : FileAddr) : decode (encodeByte 0x1 0 f) = .instr .clrw := by
  simp only [decode_encodeByte, decodeByte, encodeByte_opcode, encodeByte_bit7]; rfl

theorem decode_nop_f {f : FileAddr} (h : f &&& ~~~0x60 = 0) : decode (encodeByte 0x0 0 f) = .instr .nop := by
  have hf : f = 0x00 ∨ f = 0x20 ∨ f = 0x40 ∨ f = 0x60 := by revert f; decide
  rcases hf with rfl | rfl | rfl | rfl <;> decide

/-- A word canonical for `i` up to the don't-care bits decodes to `i`: six encodings have such bits, MOVLW, RETLW,
SUBLW and ADDLW in the opcode, CLRW and NOP in `f`. -/
theorem decode_of_canonical {w : InstrWord} {i : Instr} (h : CanonicalFor w i) : decode w = .instr i := by
  cases i with
  | movlw k =>
    obtain ⟨op, rfl, hop⟩ := (clearOpcode_eq_iff (m := 3)).1 h.2
    exact decode_movlw_opcode hop
  | retlw k =>
    obtain ⟨op, rfl, hop⟩ := (clearOpcode_eq_iff (m := 3)).1 h.2
    exact decode_retlw_opcode hop
  | sublw k =>
    obtain ⟨op, rfl, hop⟩ := (clearOpcode_eq_iff (m := 1)).1 h.2
    exact decode_sublw_opcode hop
  | addlw k =>
    obtain ⟨op, rfl, hop⟩ := (clearOpcode_eq_iff (m := 1)).1 h.2
    exact decode_addlw_opcode hop
  | clrw =>
    obtain ⟨f, rfl, -⟩ := (clearF_eq_iff (op := 0x1) (d := 0) (m := 0x7F) (f := 0)).1 h.2
    exact decode_clrw_f f
  | nop =>
    obtain ⟨f, rfl, hf⟩ := (clearF_eq_iff (op := 0x0) (d := 0) (m := 0x60) (f := 0)).1 h.2
    exact decode_nop_f hf
  | _ => exact decode_of_no_dontCareBits rfl h

end CanonicalDecodes

/-- Settles O2: a decoded word is canonical by its fields, and a canonical word decodes by the round trip where it has
no don't-care bit, and by its opcode or `f` where it has some. -/
theorem decodesExactlyWhenCanonicalUpToDontCareBits : Obligations.DecodesExactlyWhenCanonicalUpToDontCareBits :=
  fun _ _ => ⟨canonical_of_decode, decode_of_canonical⟩

end Sys2Proof.Canonical

/-! SUPPORT and O15. The words of CLRW and NOP differ from the canonical ones in don't-care bits alone, so they decode
by `Canonical.decode_of_canonical`; the effects follow from what `advance` and `literalToW` do, said once in the words
of the statements (R143, R152). -/

namespace Sys2Proof.ClrwNop

open Machine Claims

/-! ## Shared operations in the words of the statements -/

/-- The default successor is one cycle (R12, R24, R266). -/
theorem advance_eq_oneCycle (s : State) : advance s = oneCycle s := rfl

theorem zeroOf_eq_decide (r : Byte) : zeroOf r = decide (r = 0) :=
  Bool.beq_eq_decide_eq r 0

/-- A result for W that affects Z alone: one cycle, and no file register is touched (R29). -/
theorem literalToW_zFlag (r : Byte) (s : State) :
    literalToW r (zFlag r) s = .next { oneCycle s with w := r, z := decide (r = 0) } := by
  rw [← zeroOf_eq_decide]
  rfl

/-! ## CLRW (R143) -/

theorem decode_clrw {w : InstrWord} (h : w &&& 0x3F80 = 0x0100) : decode w = .instr .clrw := by
  have hmask : ~~~(dontCareBits .clrw) = 0x3F80 := by decide
  exact Canonical.decode_of_canonical ⟨rfl, hmask ▸ h⟩

theorem exec_clrw (s : State) : exec .clrw s = .next { oneCycle s with w := 0, z := true } :=
  literalToW_zFlag 0 s

/-! ## NOP (R152) -/

theorem decode_nop {w : InstrWord} (h : w &&& 0x3F9F = 0) : decode w = .instr .nop := by
  have hmask : ~~~(dontCareBits .nop) = 0x3F9F := by decide
  exact Canonical.decode_of_canonical ⟨rfl, hmask ▸ h⟩

theorem exec_nop (s : State) : exec .nop s = .next (oneCycle s) := by
  rw [← advance_eq_oneCycle]
  rfl

/-- Settles O15: the words decode as canonical up to the don't-care bits, and the effects are those of the shared
operations. -/
theorem clrwClearsWAndNopOnlyAdvances : Obligations.ClrwClearsWAndNopOnlyAdvances :=
  ⟨rfl, rfl, fun _ => decode_clrw, exec_clrw, fun _ => decode_nop, exec_nop⟩

end Sys2Proof.ClrwNop

/-! SUPPORT and O18. Bits 13:10 alone fix a bit-oriented instruction, so a word that has those of BTFSC or BTFSS is the
canonical word of its own fields and decodes by the round trip; both effects are one bit test, whose answer for a
readable and for a refused operand is said once in the words of the statements (R182, R183, R184). -/

namespace Sys2Proof.BitTests

open Machine Claims

/-! ## The words -/

theorem append_and_opcodeMask (g op : BitVec 2) (b : BitNum) (f : FileAddr) :
    (g ++ op ++ b ++ f) &&& (BitVec.allOnes 2 ++ BitVec.allOnes 2 ++ 0#3 ++ 0#7) = g ++ op ++ 0#3 ++ 0#7 := by
  simp only [BitVec.and_append, BitVec.and_allOnes, BitVec.and_zero]

/-- A word with the group and the opcode of a bit-oriented instruction is given by its `b` and `f` (R102, R106). -/
theorem eq_encodeBit_of_and {w : InstrWord} {op : BitVec 2} (h : w &&& 0x3C00 = encodeBit op 0 0) :
    w = encodeBit op (fieldB w) (fieldF w) := by
  have hmask : (0x3C00 : InstrWord) = BitVec.allOnes 2 ++ BitVec.allOnes 2 ++ 0#3 ++ 0#7 := by decide
  rw [hmask, Canonical.eq_append_fieldB w, append_and_opcodeMask] at h
  obtain ⟨hgob, -⟩ := Canonical.append_inj h
  obtain ⟨hgo, -⟩ := Canonical.append_inj hgob
  obtain ⟨hg, ho⟩ := Canonical.append_inj hgo
  exact Canonical.eq_encodeBit (congrArg BitVec.toNat hg) (congrArg BitVec.toNat ho)

theorem decode_btfsc {w : InstrWord} (h : w &&& 0x3C00 = 0x1800) :
    decode w = .instr (.btfsc (fieldF w) (fieldB w)) :=
  (congrArg decode (eq_encodeBit_of_and (op := 0b10) h)).trans (Laws.RoundTrip.btfsc (fieldF w) (fieldB w) rfl)

theorem decode_btfss {w : InstrWord} (h : w &&& 0x3C00 = 0x1C00) :
    decode w = .instr (.btfss (fieldF w) (fieldB w)) :=
  (congrArg decode (eq_encodeBit_of_and (op := 0b11) h)).trans (Laws.RoundTrip.btfss (fieldF w) (fieldB w) rfl)

/-! ## The bit test -/

/-- A taken skip is two cycles and two addresses (R184, R266). -/
theorem skipNext_advance (s : State) : skipNext (advance s) = twoCycles (s.pc + 2) s := by
  have hpc : s.pc + 1 + 1 = s.pc + 2 := BitVec.add_assoc s.pc 1 1
  rw [← hpc]
  rfl

section

variable {f : FileAddr} {b : BitNum} {s : State}

theorem testSkip_of_readable (on : Bool) (h : Readable f s) :
    testSkip f b on s = .next (if (fileValue f s).getLsbD b.toNat = on then twoCycles (s.pc + 2) (afterRead f s)
      else oneCycle (afterRead f s)) := by
  have hpc : (afterRead f s).pc = s.pc := readEffect_pc (dataAddr f s) s
  rw [testSkip, withFile_of_readable _ h, skipNext_advance, ClrwNop.advance_eq_oneCycle, ← hpc]
  exact (apply_ite Host.Outcome.next _ _ _).symm

theorem testSkip_of_refused {r : Refusal} (on : Bool) (h : accessRefusal s.cfg (dataAddr f s) = some r) :
    testSkip f b on s = .refused r :=
  withFile_of_refused _ h

theorem exec_btfsc_of_readable (h : Readable f s) :
    exec (.btfsc f b) s = .next (if (fileValue f s).getLsbD b.toNat then oneCycle (afterRead f s)
      else twoCycles (s.pc + 2) (afterRead f s)) := by
  refine (testSkip_of_readable false h).trans ?_
  cases (fileValue f s).getLsbD b.toNat <;> rfl

theorem exec_btfss_of_readable (h : Readable f s) :
    exec (.btfss f b) s = .next (if (fileValue f s).getLsbD b.toNat then twoCycles (s.pc + 2) (afterRead f s)
      else oneCycle (afterRead f s)) :=
  testSkip_of_readable true h

end

/-- Settles O18: the words decode as canonical by their fields, and both instructions are the bit test, at 0 and at
1, of an operand that is read or refused. -/
theorem bitTestsSkipOnTheBit : Obligations.BitTestsSkipOnTheBit :=
  ⟨fun _ => decode_btfsc, fun _ => decode_btfss, fun _ _ _ =>
    ⟨fun h => ⟨exec_btfsc_of_readable h, exec_btfss_of_readable h⟩,
      fun _ h => ⟨testSkip_of_refused false h, testSkip_of_refused true h⟩⟩⟩

end Sys2Proof.BitTests

/-! SUPPORT, O33 and O34. A word with the group of the literal instructions is the literal word of its own fields, so
it decodes by the round trip, and for MOVLW, whose opcode has don't-care bits, by `Canonical.decode_movlw_opcode`; the
effects follow from what `literalToW` does (R191, R192, R193, R195). -/

namespace Sys2Proof.LiteralToW

open Machine Claims

/-! ## The words -/

/-- A word with the group of the literal instructions, and with the opcode `op` as far as `m` looks, is given by its
opcode and its literal (R103). -/
theorem eq_encodeLiteral_of_and {w : InstrWord} {m op : BitVec 4}
    (h : w &&& (BitVec.allOnes 2 ++ m ++ 0#8) = encodeLiteral op 0) :
    ∃ op', w = encodeLiteral op' (fieldK8 w) ∧ op' &&& m = op := by
  rw [Canonical.eq_append_fieldK8 w, BitVec.and_append, BitVec.and_append, BitVec.and_allOnes] at h
  obtain ⟨hgo, -⟩ := Canonical.append_inj h
  obtain ⟨hg, ho⟩ := Canonical.append_inj hgo
  exact ⟨w.extractLsb' 8 4, Canonical.eq_encodeLiteral (congrArg BitVec.toNat hg) rfl, ho⟩

/-- Where the whole opcode is looked at, the word is the literal word of that opcode. -/
theorem eq_encodeLiteral_of_opcode {w : InstrWord} {op : BitVec 4} (h : w &&& 0x3F00 = encodeLiteral op 0) :
    w = encodeLiteral op (fieldK8 w) := by
  obtain ⟨op', hw, hop⟩ := eq_encodeLiteral_of_and (m := BitVec.allOnes 4) h
  rwa [BitVec.and_allOnes.symm.trans hop] at hw

theorem decode_andlw {w : InstrWord} (h : w &&& 0x3F00 = 0x3900) : decode w = .instr (.andlw (fieldK8 w)) :=
  (congrArg decode (eq_encodeLiteral_of_opcode (op := 0x9) h)).trans (Laws.RoundTrip.andlw (fieldK8 w) rfl)

theorem decode_iorlw {w : InstrWord} (h : w &&& 0x3F00 = 0x3800) : decode w = .instr (.iorlw (fieldK8 w)) :=
  (congrArg decode (eq_encodeLiteral_of_opcode (op := 0x8) h)).trans (Laws.RoundTrip.iorlw (fieldK8 w) rfl)

theorem decode_xorlw {w : InstrWord} (h : w &&& 0x3F00 = 0x3A00) : decode w = .instr (.xorlw (fieldK8 w)) :=
  (congrArg decode (eq_encodeLiteral_of_opcode (op := 0xA) h)).trans (Laws.RoundTrip.xorlw (fieldK8 w) rfl)

theorem decode_movlw {w : InstrWord} (h : w &&& 0x3C00 = 0x3000) : decode w = .instr (.movlw (fieldK8 w)) := by
  obtain ⟨op, hw, hop⟩ := eq_encodeLiteral_of_and (m := ~~~3) (op := 0x0) h
  exact (congrArg decode hw).trans (Canonical.decode_movlw_opcode hop)

/-- The number a literal word is: the opcode in bits 11:8, the literal in bits 7:0 (R103). -/
theorem encodeLiteral_toNat (op : BitVec 4) (k : Byte) :
    (encodeLiteral op k).toNat = 0x3000 + op.toNat * 2 ^ 8 + k.toNat := by
  have hgroup : (0b11#2).toNat = 3 := rfl
  rw [encodeLiteral, BitVec.toNat_append, BitVec.toNat_append, ← Nat.shiftLeft_add_eq_or_of_lt k.isLt,
    ← Nat.shiftLeft_add_eq_or_of_lt op.isLt, Nat.shiftLeft_eq, Nat.shiftLeft_eq, hgroup]
  omega

theorem encode_movlw_toNat (k : Byte) : (encode (.movlw k)).toNat = 0x3000 + k.toNat :=
  encodeLiteral_toNat 0 k

/-! ## The effects -/

theorem exec_andlw (k : Byte) (s : State) :
    exec (.andlw k) s = .next { oneCycle s with w := s.w &&& k, z := decide (s.w &&& k = 0) } :=
  ClrwNop.literalToW_zFlag (s.w &&& k) s

/-- Z of an inclusive OR: both operands are 0. -/
theorem exec_iorlw (k : Byte) (s : State) :
    exec (.iorlw k) s = .next { oneCycle s with w := s.w ||| k, z := decide (s.w = 0 ∧ k = 0) } := by
  have hz : decide (s.w ||| k = 0) = decide (s.w = 0 ∧ k = 0) := decide_eq_decide.2 BitVec.or_eq_zero_iff
  rw [← hz]
  exact ClrwNop.literalToW_zFlag (s.w ||| k) s

/-- Z of an exclusive OR: the operands are equal. -/
theorem exec_xorlw (k : Byte) (s : State) :
    exec (.xorlw k) s = .next { oneCycle s with w := s.w ^^^ k, z := decide (s.w = k) } := by
  have hz : decide (s.w ^^^ k = 0) = decide (s.w = k) := decide_eq_decide.2 BitVec.xor_eq_zero_iff
  rw [← hz]
  exact ClrwNop.literalToW_zFlag (s.w ^^^ k) s

/-- A result for W that affects no flag: one cycle, and nothing else changes. -/
theorem literalToW_noFlags (r : Byte) (s : State) : literalToW r noFlags s = .next { oneCycle s with w := r } := rfl

theorem exec_movlw (k : Byte) (s : State) : exec (.movlw k) s = .next { oneCycle s with w := k } :=
  literalToW_noFlags k s

/-- Settles O33: the words decode as the literal words of their opcode, and each effect is the shared one for a result
that affects Z alone, its Z said of the operands. -/
theorem logicLiteralResults : Obligations.LogicLiteralResults :=
  ⟨fun _ => decode_andlw, fun _ => decode_iorlw, fun _ => decode_xorlw, fun k s =>
    ⟨exec_andlw k s, exec_iorlw k s, exec_xorlw k s⟩⟩

/-- Settles O34: the words decode whatever the two low bits of the opcode are, the canonical word has them 0, and the
effect is the shared one for a result that affects no flag. -/
theorem movlwLoadsW : Obligations.MovlwLoadsW :=
  ⟨encode_movlw_toNat, fun _ => decode_movlw, exec_movlw⟩

end Sys2Proof.LiteralToW

/-! SUPPORT and O35. Bits 13:11 alone fix a jump, so a word that has those of GOTO is the canonical word of its own
target and decodes by the round trip; the target is one field above another, and the effect is a jump after the default
successor (R104, R201). -/

namespace Sys2Proof.Jumps

open Machine Claims

/-! ## The words -/

/-- A word with the group and bit 11 of a jump is given by its 11-bit literal (R104, R106). -/
theorem eq_encodeJump_of_and {w : InstrWord} {op : BitVec 1} (h : w &&& 0x3800 = encodeJump op 0) :
    w = encodeJump op (fieldK11 w) := by
  have hmask : (0x3800 : InstrWord) = BitVec.allOnes 2 ++ BitVec.allOnes 1 ++ 0#11 := by decide
  rw [hmask, Canonical.eq_append_fieldK11 w, BitVec.and_append, BitVec.and_append, BitVec.and_allOnes,
    BitVec.and_allOnes] at h
  obtain ⟨hgo, -⟩ := Canonical.append_inj h
  obtain ⟨hg, ho⟩ := Canonical.append_inj hgo
  calc w = w.extractLsb' 12 2 ++ w.extractLsb' 11 1 ++ fieldK11 w := Canonical.eq_append_fieldK11 w
    _ = encodeJump op (fieldK11 w) := by rw [hg, ho, encodeJump]

theorem decode_goto {w : InstrWord} (h : w &&& 0x3800 = 0x2800) : decode w = .instr (.goto (fieldK11 w)) :=
  (congrArg decode (eq_encodeJump_of_and (op := 1) h)).trans (Laws.RoundTrip.goto (fieldK11 w) rfl)

/-! ## The target -/

section

variable (k : BitVec 11) (s : State)

theorem jumpTarget_low : (jumpTarget k s).extractLsb' 0 11 = k :=
  BitVec.extractLsb'_append_eq_right

theorem jumpTarget_high : (jumpTarget k s).extractLsb' 11 2 = s.pclath.extractLsb' 3 2 :=
  BitVec.extractLsb'_append_eq_left

/-! ## The effect -/

/-- A jump after the default successor is two cycles, and the address jumped to is what decides PC (R24, R266). -/
theorem jump_advance (a : ProgAddr) : jump a (advance s) = twoCycles a s := rfl

theorem exec_goto : exec (.goto k) s = .next (twoCycles (jumpTarget k s) s) :=
  congrArg Host.Outcome.next (jump_advance s (jumpTarget k s))

end

/-- Settles O35: the words decode as the jump word of GOTO, and the address with the two fields is `jumpTarget`. -/
theorem gotoTarget : Obligations.GotoTarget :=
  ⟨fun _ => decode_goto, fun k s =>
    ⟨jumpTarget k s, jumpTarget_low k s, jumpTarget_high k s, exec_goto k s⟩⟩

end Sys2Proof.Jumps

/-! SUPPORT, O1, O3, O4 and O5. The round trip is the family RoundTrip put together; a word is unassigned by its block,
its opcode and its `f` alone, each a digit of its number; and each operand form of the assembler reads back the numbers
it lists (R108, R110, R111, R113, R114). -/

namespace Sys2Proof.Encodings

open Machine

/-- Settles O1: the family RoundTrip, put together. -/
theorem decodeOfEncodeIsTheInstruction : Obligations.DecodeOfEncodeIsTheInstruction :=
  Canonical.roundTrip

/-! ## The unassigned words (R111) -/

section Unassigned

variable {w : InstrWord}

theorem group_toNat (w : InstrWord) : (w.extractLsb' 12 2).toNat = w.toNat / 4096 := by
  have := w.isLt
  rw [BitVec.extractLsb'_toNat, Nat.shiftRight_eq_div_pow]
  omega

theorem opcode_toNat (w : InstrWord) : (w.extractLsb' 8 4).toNat = w.toNat / 256 % 16 := by
  rw [BitVec.extractLsb'_toNat, Nat.shiftRight_eq_div_pow]

theorem fieldF_toNat (w : InstrWord) : (fieldF w).toNat = w.toNat % 128 := by
  rw [fieldF, BitVec.extractLsb'_toNat, Nat.shiftRight_zero]

theorem bit7_iff (w : InstrWord) : w.getLsbD 7 = true ↔ w.toNat / 128 % 2 = 1 := by
  rw [BitVec.getLsbD, Nat.testBit_eq_decide_div_mod_eq, decide_eq_true_eq]

theorem decodeControl_unassigned_iff :
    decodeControl w = .unassigned w ↔
      (fieldF w).toNat ∉ [0x00, 0x20, 0x40, 0x60, 0x08, 0x09, 0x62, 0x63, 0x64, 0x65, 0x66, 0x67] := by
  unfold decodeControl
  split <;> simp_all

theorem decodeByte_unassigned_iff :
    decodeByte w = .unassigned w ↔
      (w.extractLsb' 8 4).toNat = 0 ∧ w.getLsbD 7 = false ∧ decodeControl w = .unassigned w := by
  unfold decodeByte
  split
  · next h => cases w.getLsbD 7 <;> simp [h]
  · next h => cases w.getLsbD 7 <;> simp [h]
  all_goals simp_all

theorem decodeBit_ne_unassigned : decodeBit w ≠ .unassigned w := by
  unfold decodeBit
  split <;> simp

theorem decodeJump_ne_unassigned : decodeJump w ≠ .unassigned w := by
  unfold decodeJump
  split <;> simp

theorem decodeLiteral_unassigned_iff :
    decodeLiteral w = .unassigned w ↔ (w.extractLsb' 8 4).toNat = 0xB := by
  unfold decodeLiteral
  split <;> simp_all

/-- A word is unassigned in the control block, by its `f`, or as the literal instruction of opcode 1011. -/
theorem decode_unassigned_iff :
    decode w = .unassigned w ↔
      (w.extractLsb' 12 2).toNat = 0 ∧ decodeByte w = .unassigned w ∨
      (w.extractLsb' 12 2).toNat = 3 ∧ decodeLiteral w = .unassigned w := by
  have hlt := (w.extractLsb' 12 2).isLt
  unfold decode
  split
  · next h => simp [h]
  · next h => simp [h, decodeBit_ne_unassigned]
  · next h => simp [h, decodeJump_ne_unassigned]
  · next h0 h1 h2 =>
    have h3 : (w.extractLsb' 12 2).toNat = 3 := by grind
    simp [h3]

/-- Settles O3: the digits of the word's number say its block, its opcode and its `f`. -/
theorem unassignedWordsAreThoseOfTheTable : Obligations.UnassignedWordsAreThoseOfTheTable := by
  intro w
  have hlt := w.isLt
  have hbit : w.getLsbD 7 = false ↔ w.toNat / 128 % 2 = 0 := by
    rw [← Bool.not_eq_true, bit7_iff]
    omega
  rw [decode_unassigned_iff, decodeByte_unassigned_iff, decodeLiteral_unassigned_iff, decodeControl_unassigned_iff,
    group_toNat, opcode_toNat, fieldF_toNat, hbit]
  simp only [List.mem_cons, List.not_mem_nil, or_false]
  omega

end Unassigned

/-- Settles O4: closed words, one by one. -/
theorem writtenOutWordsDecode : Obligations.WrittenOutWordsDecode := by
  unfold Obligations.WrittenOutWordsDecode
  decide

/-! ## The operand forms of the assembler (R113, R114) -/

section Assembler

variable (f : FileAddr) (d : Dest) (b : BitNum)

/-- The number in a field is in the field's range and gives the field back. -/
theorem fieldValue_toNat {n : Nat} (x : BitVec n) : fieldValue n x.toNat = .ok x := by
  rw [fieldValue, if_pos x.isLt, BitVec.ofNat_toNat, BitVec.setWidth_eq]

theorem destValue_destNumber : destValue (destNumber d) = .ok d := by
  cases d <;> rfl

theorem asmFileDest_operands (mk : FileAddr → Dest → Instr) :
    asmFileDest mk [f.toNat, destNumber d] = .ok (mk f d) := by
  simp only [asmFileDest, fieldValue_toNat, destValue_destNumber]; rfl

theorem asmFile_operands (mk : FileAddr → Instr) : asmFile mk [f.toNat] = .ok (mk f) := by
  simp only [asmFile, fieldValue_toNat]; rfl

theorem asmFileBit_operands (mk : FileAddr → BitNum → Instr) :
    asmFileBit mk [f.toNat, b.toNat] = .ok (mk f b) := by
  simp only [asmFileBit, fieldValue_toNat]; rfl

theorem asmLiteral_operands (mk : Byte → Instr) (k : Byte) : asmLiteral mk [k.toNat] = .ok (mk k) := by
  simp only [asmLiteral, fieldValue_toNat]; rfl

theorem asmTarget_operands (mk : BitVec 11 → Instr) (k : BitVec 11) : asmTarget mk [k.toNat] = .ok (mk k) := by
  simp only [asmTarget, fieldValue_toNat]; rfl

theorem asmTris_operands {n : BitVec 3} (h : trisNumberOk n = true) : asmTris [n.toNat] = .ok (.tris n) := by
  have hn : 5 ≤ n.toNat ∧ n.toNat ≤ 7 := ⟨of_decide_eq_true h, Nat.le_of_lt_succ n.isLt⟩
  rw [asmTris, if_pos hn, BitVec.ofNat_toNat, BitVec.setWidth_eq]

end Assembler

/-- Settles O5: each mnemonic selects its operand form, which reads back the numbers listed. -/
theorem assemblyOfListedOperandsIsTheInstruction : Obligations.AssemblyOfListedOperandsIsTheInstruction := by
  intro i hwf
  cases i with
  | addwf f d => exact asmFileDest_operands f d .addwf
  | andwf f d => exact asmFileDest_operands f d .andwf
  | clrf f => exact asmFile_operands f .clrf
  | clrw => rfl
  | comf f d => exact asmFileDest_operands f d .comf
  | decf f d => exact asmFileDest_operands f d .decf
  | decfsz f d => exact asmFileDest_operands f d .decfsz
  | incf f d => exact asmFileDest_operands f d .incf
  | incfsz f d => exact asmFileDest_operands f d .incfsz
  | iorwf f d => exact asmFileDest_operands f d .iorwf
  | movf f d => exact asmFileDest_operands f d .movf
  | movwf f => exact asmFile_operands f .movwf
  | nop => rfl
  | rlf f d => exact asmFileDest_operands f d .rlf
  | rrf f d => exact asmFileDest_operands f d .rrf
  | subwf f d => exact asmFileDest_operands f d .subwf
  | swapf f d => exact asmFileDest_operands f d .swapf
  | xorwf f d => exact asmFileDest_operands f d .xorwf
  | bcf f b => exact asmFileBit_operands f b .bcf
  | bsf f b => exact asmFileBit_operands f b .bsf
  | btfsc f b => exact asmFileBit_operands f b .btfsc
  | btfss f b => exact asmFileBit_operands f b .btfss
  | addlw k => exact asmLiteral_operands .addlw k
  | andlw k => exact asmLiteral_operands .andlw k
  | call k => exact asmTarget_operands .call k
  | clrwdt => rfl
  | goto k => exact asmTarget_operands .goto k
  | iorlw k => exact asmLiteral_operands .iorlw k
  | movlw k => exact asmLiteral_operands .movlw k
  | retfie => rfl
  | retlw k => exact asmLiteral_operands .retlw k
  | ret => rfl
  | sleep => rfl
  | sublw k => exact asmLiteral_operands .sublw k
  | xorlw k => exact asmLiteral_operands .xorlw k
  | option => rfl
  | tris n => exact asmTris_operands hwf

end Sys2Proof.Encodings

/-! SUPPORT. What every register reads as and what a write does to it, one equation per kind (R66 to R73); the shapes
of the file register instructions in the words of the statements (R63, R74, R159, R184); and the flags an update gives,
in the statements' own arithmetic (R26 to R29). -/

namespace Sys2Proof.Registers

open Machine Claims

/-! ## Reading a register, one equation per kind (R66 to R73) -/

section Read

variable {a : DataAddr} {s : State}

theorem memRead_gpr {n : Nat} (h : regKind s.cfg a = .gpr n) : memRead a s = gprRead s.gpr n := by
  simp only [memRead, h]

theorem memRead_indf (h : regKind s.cfg a = .indf) : memRead a s = 0 := by
  simp only [memRead, h]

theorem memRead_tmr0 (h : regKind s.cfg a = .tmr0) : memRead a s = s.tmr0 := by
  simp only [memRead, h]

theorem memRead_pcl (h : regKind s.cfg a = .pcl) : memRead a s = (s.pc + 1).setWidth 8 := by
  simp only [memRead, h]

theorem memRead_status (h : regKind s.cfg a = .status) : memRead a s = statusByte s := by
  simp only [memRead, h]

theorem memRead_fsr (h : regKind s.cfg a = .fsr) : memRead a s = s.fsr := by
  simp only [memRead, h]

theorem memRead_pclath (h : regKind s.cfg a = .pclath) : memRead a s = s.pclath.setWidth 8 := by
  simp only [memRead, h]

theorem memRead_intcon (h : regKind s.cfg a = .intcon) : memRead a s = s.intcon := by
  simp only [memRead, h]

theorem memRead_option (h : regKind s.cfg a = .option) : memRead a s = s.optionReg := by
  simp only [memRead, h]

theorem memRead_port {p : PortId} (h : regKind s.cfg a = .port p) : memRead a s = portValue p s := by
  simp only [memRead, h]

theorem memRead_tris {p : PortId} (h : regKind s.cfg a = .tris p) : memRead a s = (getPort p s).tris := by
  simp only [memRead, h]

theorem memRead_unimplemented (h : regKind s.cfg a = .unimplemented) : memRead a s = 0 := by
  simp only [memRead, h]

theorem readEffect_port {p : PortId} (h : regKind s.cfg a = .port p) : readEffect a s = readPort p s := by
  simp only [readEffect, h]

end Read

/-! ## Writing a register, one equation per kind (R66 to R73) -/

section Write

variable {a : DataAddr} {s : State} (v : Byte) (b : Bool)

theorem memWrite_gpr {n : Nat} (h : regKind s.cfg a = .gpr n) :
    memWrite a v b s = { s with gpr := gprWrite s.gpr n v } := by
  simp only [memWrite, h]

theorem memWrite_indf (h : regKind s.cfg a = .indf) : memWrite a v b s = s := by
  simp only [memWrite, h]

theorem memWrite_tmr0 (h : regKind s.cfg a = .tmr0) : memWrite a v b s = writeTmr0 v s := by
  simp only [memWrite, h]

theorem memWrite_pcl (h : regKind s.cfg a = .pcl) : memWrite a v b s = jump (s.pclath ++ v) s := by
  simp only [memWrite, h]

theorem memWrite_status (h : regKind s.cfg a = .status) : memWrite a v b s = writeStatus v b s := by
  simp only [memWrite, h]

theorem memWrite_fsr (h : regKind s.cfg a = .fsr) : memWrite a v b s = { s with fsr := v } := by
  simp only [memWrite, h]

theorem memWrite_pclath (h : regKind s.cfg a = .pclath) :
    memWrite a v b s = { s with pclath := v.setWidth 5 } := by
  simp only [memWrite, h]

theorem memWrite_intcon (h : regKind s.cfg a = .intcon) : memWrite a v b s = { s with intcon := v } := by
  simp only [memWrite, h]

theorem memWrite_option (h : regKind s.cfg a = .option) : memWrite a v b s = setOption v s := by
  simp only [memWrite, h]

theorem memWrite_port {p : PortId} (h : regKind s.cfg a = .port p) : memWrite a v b s = writeLatch p v s := by
  simp only [memWrite, h]

theorem memWrite_tris {p : PortId} (h : regKind s.cfg a = .tris p) : memWrite a v b s = writeTris p v s := by
  simp only [memWrite, h]

theorem memWrite_unimplemented (h : regKind s.cfg a = .unimplemented) : memWrite a v b s = s := by
  simp only [memWrite, h]

/-- Only a write to STATUS changes C, DC and Z (R70). -/
theorem memWrite_flags (h : regKind s.cfg a ≠ .status) :
    (memWrite a v b s).c = s.c ∧ (memWrite a v b s).dc = s.dc ∧ (memWrite a v b s).z = s.z := by
  unfold memWrite
  split
  case h_5 hk => exact absurd hk h
  all_goals exact ⟨rfl, rfl, rfl⟩

end Write

/-! ## Which registers an access reaches (R67) -/

section Access

variable {f : FileAddr} {s : State}

/-- An access is refused for a device register, a refused address, and INDF without indirect addressing alone. -/
theorem readable_of_fileKind {k : RegKind} (h : fileKind f s = k) (hd : ∀ name, k ≠ .device name)
    (hr : k ≠ .refused) (hi : k = .indf → s.cfg.hasIndirect = true) : Readable f s := by
  have hk : regKind s.cfg (dataAddr f s) = k := h
  unfold Readable accessRefusal
  rw [hk]
  split
  · next name => exact absurd rfl (hd name)
  · exact absurd rfl hr
  · exact if_pos (hi rfl)
  · rfl

theorem afterRead_of_not_port {k : RegKind} (h : fileKind f s = k) (hp : ∀ p, k ≠ .port p) : afterRead f s = s :=
  readEffect_of_not_port _ _ fun p hk => hp p (h.symm.trans hk)

end Access

/-! ## The flags of an update, in the statements' arithmetic (R26 to R29) -/

/-- The values C, DC and Z have after an update. -/
def flagsAfter (y : FlagUpdate) (s : State) : FlagValues := ⟨y.c.getD s.c, y.dc.getD s.dc, y.z.getD s.z⟩

section Flags

variable (a b r : Byte) (s : State)

/-- An update of a state with the flags of `s` gives the flags it gives `s`. -/
theorem setFlags_eq_withFlags {y : FlagUpdate} {s t : State} (h : t.c = s.c ∧ t.dc = s.dc ∧ t.z = s.z) :
    setFlags y t = withFlags (flagsAfter y s) t := by
  obtain ⟨hc, hdc, hz⟩ := h
  rw [flagsAfter, ← hc, ← hdc, ← hz]
  rfl

theorem flagsAfter_noFlags : flagsAfter noFlags s = keptFlags s := rfl

theorem flagsAfter_cFlag (c : Bool) : flagsAfter (cFlag c) s = ⟨c, s.dc, s.z⟩ := rfl

theorem flagsAfter_zFlag : flagsAfter (zFlag r) s = zeroFlag s r := by
  rw [zeroFlag, ← ClrwNop.zeroOf_eq_decide]
  rfl

theorem nibble_toNat : (a.extractLsb' 0 4).toNat = nibble a := by
  rw [BitVec.extractLsb'_toNat, Nat.shiftRight_zero, nibble]

/-- Bit 8 of the 9-bit sum is the carry out (R27). -/
theorem carryOut_eq_bit8 : carryOut a b 0 = (a.setWidth 9 + b.setWidth 9).getLsbD 8 := by
  have ha := a.isLt
  have hb := b.isLt
  have hsum : (a.setWidth 9 + b.setWidth 9).toNat = a.toNat + b.toNat := by
    rw [BitVec.toNat_add, BitVec.toNat_setWidth, BitVec.toNat_setWidth]
    omega
  rw [carryOut, BitVec.getLsbD, hsum, Nat.testBit_eq_decide_div_mod_eq, decide_eq_decide]
  omega

theorem flagsAfter_addFlags : flagsAfter (addFlags a b) s = sumFlags a b := by
  rw [sumFlags, ← carryOut_eq_bit8, ← ClrwNop.zeroOf_eq_decide, nibble_toNat, nibble_toNat]
  rfl

/-- No carry out of `a + ~b + 1` is a borrow (R27). -/
theorem carryOut_not : carryOut a (~~~b) 1 = decide (b.toNat ≤ a.toNat) := by
  have hb := b.isLt
  rw [carryOut, BitVec.toNat_not, decide_eq_decide]
  omega

theorem digitCarryOut_not : digitCarryOut a (~~~b) 1 = decide (nibble b ≤ nibble a) := by
  have hb := b.isLt
  rw [digitCarryOut, nibble, nibble, nibble, BitVec.toNat_not, decide_eq_decide]
  omega

theorem zeroOf_sub : zeroOf (a - b) = decide (a = b) := by
  rw [ClrwNop.zeroOf_eq_decide, decide_eq_decide]
  exact sub_eq_zero

theorem flagsAfter_subFlags : flagsAfter (subFlags a b) s = differenceFlags a b := by
  rw [differenceFlags, ← carryOut_not, nibble_toNat, nibble_toNat, ← digitCarryOut_not, ← zeroOf_sub]
  rfl

end Flags

/-! ## The shapes of the file register instructions, in the statements' words (R63, R74, R159, R184) -/

/-- The skip, where it is taken. -/
def skipIf (taken : Bool) (s : State) : State := if taken then skipNext s else s

theorem passed_eq_skipIf (i : Instr) (r : Byte) (s : State) :
    passed i r s = skipIf (skipsOnZero i r) (oneCycle s) := by
  unfold passed skipIf
  split
  · exact (BitTests.skipNext_advance s).symm
  · rfl

section Shapes

variable {f : FileAddr} {d : Dest} {s : State}

theorem fileToDest_of_readable (op : Byte → Byte × FlagUpdate) (h : Readable f s) :
    fileToDest f d op s = .next (setFlags (op (fileValue f s)).2
      (writeDest d (dataAddr f s) (op (fileValue f s)).1 (affectsAny (op (fileValue f s)).2)
        (oneCycle (afterRead f s)))) :=
  withFile_of_readable _ h

theorem fileToDestSkip_of_readable (op : Byte → Byte) (h : Readable f s)
    (hp : d = .w ∨ fileKind f s ≠ .pcl) :
    fileToDestSkip f d op s = .next (skipIf (decide (op (fileValue f s) = 0))
      (writeDest d (dataAddr f s) (op (fileValue f s)) false (oneCycle (afterRead f s)))) := by
  have hpcl : ¬ (decide (d = .f) && decide (regKind s.cfg (dataAddr f s) = .pcl)) = true := by
    rcases hp with rfl | hk
    · simp
    · simp [show regKind s.cfg (dataAddr f s) ≠ .pcl from hk]
  unfold fileToDestSkip
  rw [if_neg hpcl, withFile_of_readable _ h]
  by_cases h0 : op (fileValue f s) = 0
  · rw [decide_eq_true h0]
    exact if_pos h0
  · rw [decide_eq_false h0]
    exact if_neg h0

/-- DECFSZ and INCFSZ onto PCL are refused before the read (R69, D29). -/
theorem fileToDestSkip_of_pcl (op : Byte → Byte) (h : fileKind f s = .pcl) :
    fileToDestSkip f .f op s = .refused (.refusedForm s.pc) := by
  have hk : regKind s.cfg (dataAddr f s) = .pcl := h
  simp [fileToDestSkip, hk]

end Shapes

/-! ## What the table `fileWrite` says of `exec` -/

/-- How an instruction that `fileWrite` lists is put together: it is one of the two shapes, and the table's result and
flags are those of its operation. -/
inductive WriteShape (i : Instr) (s : State) (v : Byte) (f : FileAddr) (r : Byte) (u : FlagValues) (a : Bool) :
    Prop
  | dest (op : Byte → Byte × FlagUpdate) (exec_eq : exec i s = fileToDest f .f op s) (result : (op v).1 = r)
      (flags : flagsAfter (op v).2 s = u) (affects : affectsAny (op v).2 = a)
      (not_skip : ∀ r, skipsOnZero i r = false)
  | skip (op : Byte → Byte) (exec_eq : exec i s = fileToDestSkip f .f op s) (result : op v = r)
      (flags : u = keptFlags s) (affects : a = false) (is_skip : i = .decfsz f .f ∨ i = .incfsz f .f)

/-- RLF: the byte shifted left, C below it (R153). -/
theorem rotateLeft_eq (v : Byte) (c : Bool) :
    v.extractLsb' 0 7 ++ BitVec.ofBool c = v <<< 1 ||| (BitVec.ofBool c).setWidth 8 := by
  apply BitVec.eq_of_getLsbD_eq
  intro j hj
  rw [BitVec.getLsbD_append]
  rcases j with _ | j
  · simp
  · simp [show j + 1 < 8 by omega, show j < 7 by omega, BitVec.getLsbD_eq_getElem (show j < 8 by omega)]

/-- RRF: the byte shifted right, C above it (R154). -/
theorem rotateRight_eq (v : Byte) (c : Bool) :
    BitVec.ofBool c ++ v.extractLsb' 1 7 = v >>> 1 ||| (BitVec.ofBool c).setWidth 8 <<< 7 := by
  apply BitVec.eq_of_getLsbD_eq
  intro j hj
  rw [BitVec.getLsbD_append]
  by_cases h7 : j < 7
  · simp [h7, Nat.add_comm]
  · obtain rfl : j = 7 := by omega
    simp

theorem swapNibbles_eq (v : Byte) : v.extractLsb' 0 4 ++ v.extractLsb' 4 4 = v.rotateLeft 4 := by
  apply BitVec.eq_of_getLsbD_eq
  intro j hj
  rw [BitVec.getLsbD_append, BitVec.getLsbD_rotateLeft]
  by_cases h4 : j < 4
  · simp [h4]
  · simp [h4, show j - 4 < 4 by omega, hj]

section Table

variable {i : Instr} {s : State} {v : Byte} {f : FileAddr} {r : Byte} {u : FlagValues} {a : Bool}

theorem fileWrite_shape (h : fileWrite i s v = some (f, r, u, a)) : WriteShape i s v f r u a := by
  cases i with
  | addwf _ d =>
    cases d <;> cases h
    exact .dest _ (rfl : execAddwf f .f s = _) rfl (flagsAfter_addFlags _ _ _) rfl fun _ => rfl
  | andwf _ d =>
    cases d <;> cases h
    exact .dest _ (rfl : execAndwf f .f s = _) rfl (flagsAfter_zFlag _ _) rfl fun _ => rfl
  | clrf _ =>
    cases h
    exact .dest _ (rfl : execClrf f s = _) rfl (flagsAfter_zFlag _ _) rfl fun _ => rfl
  | comf _ d =>
    cases d <;> cases h
    exact .dest _ (rfl : execComf f .f s = _) rfl (flagsAfter_zFlag _ _) rfl fun _ => rfl
  | decf _ d =>
    cases d <;> cases h
    exact .dest _ (rfl : execDecf f .f s = _) rfl (flagsAfter_zFlag _ _) rfl fun _ => rfl
  | decfsz _ d =>
    cases d <;> cases h
    exact .skip _ (rfl : execDecfsz f .f s = _) rfl rfl rfl (.inl rfl)
  | incf _ d =>
    cases d <;> cases h
    exact .dest _ (rfl : execIncf f .f s = _) rfl (flagsAfter_zFlag _ _) rfl fun _ => rfl
  | incfsz _ d =>
    cases d <;> cases h
    exact .skip _ (rfl : execIncfsz f .f s = _) rfl rfl rfl (.inr rfl)
  | iorwf _ d =>
    cases d <;> cases h
    exact .dest _ (rfl : execIorwf f .f s = _) rfl (flagsAfter_zFlag _ _) rfl fun _ => rfl
  | movf _ d =>
    cases d <;> cases h
    exact .dest _ (rfl : execMovf f .f s = _) rfl (flagsAfter_zFlag _ _) rfl fun _ => rfl
  | movwf _ =>
    cases h
    exact .dest _ (rfl : execMovwf f s = _) rfl (flagsAfter_noFlags _) rfl fun _ => rfl
  | rlf _ d =>
    cases d <;> cases h
    exact .dest _ (rfl : execRlf f .f s = _) (rotateLeft_eq _ _) (flagsAfter_cFlag _ _) rfl fun _ => rfl
  | rrf _ d =>
    cases d <;> cases h
    exact .dest _ (rfl : execRrf f .f s = _) (rotateRight_eq _ _) (flagsAfter_cFlag _ _) rfl fun _ => rfl
  | subwf _ d =>
    cases d <;> cases h
    exact .dest _ (rfl : execSubwf f .f s = _) rfl (flagsAfter_subFlags _ _ _) rfl fun _ => rfl
  | swapf _ d =>
    cases d <;> cases h
    exact .dest _ (rfl : execSwapf f .f s = _) (swapNibbles_eq _) (flagsAfter_noFlags _) rfl fun _ => rfl
  | xorwf _ d =>
    cases d <;> cases h
    exact .dest _ (rfl : execXorwf f .f s = _) rfl (flagsAfter_zFlag _ _) rfl fun _ => rfl
  | bcf _ b =>
    cases h
    exact .dest _ (rfl : execBcf f b s = _) rfl (flagsAfter_noFlags _) rfl fun _ => rfl
  | bsf _ b =>
    cases h
    exact .dest _ (rfl : execBsf f b s = _) rfl (flagsAfter_noFlags _) rfl fun _ => rfl
  | _ => cases h

/-- What every instruction with a file destination other than PCL does: the destination takes the result, the flags
are set, and DECFSZ and INCFSZ may skip (R159, R184). -/
theorem exec_of_fileWrite (h : fileWrite i s (fileValue f s) = some (f, r, u, a)) (hr : Readable f s)
    (hp : fileKind f s ≠ .pcl) :
    ∃ y, flagsAfter y s = u ∧ affectsAny y = a ∧
      exec i s = .next (skipIf (skipsOnZero i r)
        (setFlags y (memWrite (dataAddr f s) r a (oneCycle (afterRead f s))))) := by
  cases fileWrite_shape h with
  | dest op exec_eq result flags affects not_skip =>
    refine ⟨_, flags, affects, ?_⟩
    rw [exec_eq, fileToDest_of_readable op hr, result, affects, not_skip]
    rfl
  | skip op exec_eq result flags affects is_skip =>
    refine ⟨noFlags, flags.symm, affects.symm, ?_⟩
    have hz : skipsOnZero i r = decide (r = 0) := by rcases is_skip with rfl | rfl <;> rfl
    rw [exec_eq, fileToDestSkip_of_readable op hr (.inr hp), result, affects, hz]
    rfl

/-- The same for a destination other than STATUS, whose write leaves the flags to the instruction. -/
theorem exec_of_fileWrite_flags (h : fileWrite i s (fileValue f s) = some (f, r, u, a)) (hr : Readable f s)
    (hp : fileKind f s ≠ .pcl) (hs : fileKind f s ≠ .status) :
    exec i s = .next (withFlags u
      (skipIf (skipsOnZero i r) (memWrite (dataAddr f s) r a (oneCycle (afterRead f s))))) := by
  obtain ⟨y, rfl, -, hx⟩ := exec_of_fileWrite h hr hp
  have hk : regKind (oneCycle (afterRead f s)).cfg (dataAddr f s) ≠ .status := by
    change regKind (readEffect (dataAddr f s) s).cfg (dataAddr f s) ≠ .status
    rw [readEffect_cfg]
    exact hs
  obtain ⟨hc, hdc, hz⟩ := memWrite_flags r a hk
  have hflags : setFlags y (memWrite (dataAddr f s) r a (oneCycle (afterRead f s))) =
      withFlags (flagsAfter y s) (memWrite (dataAddr f s) r a (oneCycle (afterRead f s))) :=
    setFlags_eq_withFlags
      ⟨hc.trans (readEffect_c _ s), hdc.trans (readEffect_dc _ s), hz.trans (readEffect_z _ s)⟩
  rw [hx, hflags]
  cases skipsOnZero i r <;> rfl

end Table

end Sys2Proof.Registers

/-! SUPPORT, O9 to O14, O16, O17 and O32. An instruction of the shape `fileToDest` gives its result in W and in a
general purpose register by one lemma each, so that of every instruction only the arithmetic of its result and its flags
is left (R140 to R157, R180, R181); DECFSZ and INCFSZ are the shape with the skip (R146, R148). -/

namespace Sys2Proof.FileResults

open Machine Claims Registers

/-! ## One shape, two destinations (R74) -/

section Destinations

variable {f : FileAddr} {s : State} {n : Nat}

theorem fileToDest_w (op : Byte → Byte × FlagUpdate) (h : Readable f s) :
    fileToDest f .w op s = .next (withFlags (flagsAfter (op (fileValue f s)).2 s)
      { oneCycle (afterRead f s) with w := (op (fileValue f s)).1 }) := by
  rw [fileToDest_of_readable op h]
  exact congrArg Host.Outcome.next (setFlags_eq_withFlags
    ⟨readEffect_c (dataAddr f s) s, readEffect_dc (dataAddr f s) s, readEffect_z (dataAddr f s) s⟩)

theorem fileToDest_gpr (op : Byte → Byte × FlagUpdate) (h : fileKind f s = .gpr n) :
    fileToDest f .f op s = .next (withFlags (flagsAfter (op (gprRead s.gpr n)).2 s)
      { oneCycle s with gpr := gprWrite s.gpr n (op (gprRead s.gpr n)).1 }) := by
  have hr : Readable f s := readable_of_fileKind h nofun nofun nofun
  have hv : fileValue f s = gprRead s.gpr n := memRead_gpr h
  have hk : regKind (oneCycle s).cfg (dataAddr f s) = .gpr n := h
  rw [fileToDest_of_readable op hr, hv, afterRead_of_not_port h nofun, writeDest, memWrite_gpr _ _ hk]
  exact congrArg Host.Outcome.next (setFlags_eq_withFlags ⟨rfl, rfl, rfl⟩)

end Destinations

section Results

variable {op : State → Byte → Byte × FlagUpdate} {r : State → Byte → Byte} {u : State → Byte → FlagValues}

theorem resultInW_of_fileToDest {i : FileAddr → Dest → Instr}
    (hi : ∀ f s, exec (i f .w) s = fileToDest f .w (op s) s) (hr : ∀ s v, (op s v).1 = r s v)
    (hu : ∀ s v, flagsAfter (op s v).2 s = u s v) : ResultInW i r u := by
  intro f s h
  rw [hi, fileToDest_w (op s) h, hr, hu]

theorem resultInGpr_of_fileToDest {i : FileAddr → Instr}
    (hi : ∀ f s, exec (i f) s = fileToDest f .f (op s) s) (hr : ∀ s v, (op s v).1 = r s v)
    (hu : ∀ s v, flagsAfter (op s v).2 s = u s v) : ResultInGpr i r u := by
  intro f s n h
  rw [hi, fileToDest_gpr (op s) h, hr, hu]
  exact ⟨_, rfl, gprRead_gprWrite_self _ _ _, fun m hm => gprRead_gprWrite_ne _ _ hm, rfl⟩

/-- The result and the flags of the operation are all that is left to say of an instruction. -/
theorem resultByDest_of_fileToDest {i : FileAddr → Dest → Instr}
    (hi : ∀ f d s, exec (i f d) s = fileToDest f d (op s) s) (hr : ∀ s v, (op s v).1 = r s v)
    (hu : ∀ s v, flagsAfter (op s v).2 s = u s v) : ResultByDest i r u :=
  ⟨resultInW_of_fileToDest (fun f s => hi f .w s) hr hu, resultInGpr_of_fileToDest (fun f s => hi f .f s) hr hu⟩

end Results

/-! ## Arithmetic and logic (R140, R141, R149, R155, R157) -/

/-- Settles O9: the flags of the sum are those of the 9-bit sum and of the low nibbles. -/
theorem addwfResultAndFlags : Obligations.AddwfResultAndFlags :=
  resultByDest_of_fileToDest (fun _ _ _ => (rfl : execAddwf _ _ _ = _)) (fun _ _ => rfl)
    fun _ _ => flagsAfter_addFlags _ _ _

/-- Settles O10: no carry out of `f + ~W + 1` is a borrow. -/
theorem subwfResultAndFlags : Obligations.SubwfResultAndFlags :=
  resultByDest_of_fileToDest (fun _ _ _ => (rfl : execSubwf _ _ _ = _)) (fun _ _ => rfl)
    fun _ _ => flagsAfter_subFlags _ _ _

/-- Z alone, of a result that is 0 exactly where `p` holds (R29). -/
theorem flagsAfter_zFlag_iff {x : Byte} {p : Prop} [Decidable p] (s : State) (h : x = 0 ↔ p) :
    flagsAfter (zFlag x) s = ⟨s.c, s.dc, decide p⟩ := by
  rw [flagsAfter_zFlag, zeroFlag, decide_eq_decide.2 h]

/-- Settles O11: Z of an exclusive OR says that the operands are equal. -/
theorem logicFileResults : Obligations.LogicFileResults :=
  ⟨resultByDest_of_fileToDest (fun _ _ _ => (rfl : execAndwf _ _ _ = _)) (fun _ _ => rfl)
      fun _ _ => flagsAfter_zFlag _ _,
    resultByDest_of_fileToDest (fun _ _ _ => (rfl : execIorwf _ _ _ = _)) (fun _ _ => rfl)
      fun _ _ => flagsAfter_zFlag _ _,
    resultByDest_of_fileToDest (fun _ _ _ => (rfl : execXorwf _ _ _ = _)) (fun _ _ => rfl)
      fun s _ => flagsAfter_zFlag_iff s BitVec.xor_eq_zero_iff⟩

/-! ## Complement, decrement, increment (R144, R145, R147, R150) -/

section Unary

variable (v : Byte)

theorem not_eq_ofNat : ~~~v = BitVec.ofNat 8 (255 - v.toNat) := by
  have := v.isLt
  apply BitVec.eq_of_toNat_eq
  rw [BitVec.toNat_not, BitVec.toNat_ofNat]
  omega

theorem sub_one_eq_ofNat : v - 1 = BitVec.ofNat 8 (v.toNat + 255) := by
  apply BitVec.eq_of_toNat_eq
  rw [BitVec.toNat_sub, BitVec.toNat_ofNat, show (1 : Byte).toNat = 1 from rfl]
  omega

theorem add_one_eq_ofNat : v + 1 = BitVec.ofNat 8 (v.toNat + 1) := by
  apply BitVec.eq_of_toNat_eq
  rw [BitVec.toNat_add, BitVec.toNat_ofNat, show (1 : Byte).toNat = 1 from rfl]

theorem not_eq_zero_iff : ~~~v = 0 ↔ v = 0xFF := by
  bv_omega

theorem sub_one_eq_zero_iff : v - 1 = 0 ↔ v = 1 := sub_eq_zero

theorem add_one_eq_zero_iff : v + 1 = 0 ↔ v = 0xFF := by
  bv_omega

end Unary

/-- Settles O12: each result and its Z as arithmetic of the value read. -/
theorem unaryFileResults : Obligations.UnaryFileResults :=
  ⟨resultByDest_of_fileToDest (fun _ _ _ => (rfl : execComf _ _ _ = _)) (fun _ _ => not_eq_ofNat _)
      fun s v => flagsAfter_zFlag_iff s (not_eq_zero_iff v),
    resultByDest_of_fileToDest (fun _ _ _ => (rfl : execDecf _ _ _ = _)) (fun _ _ => sub_one_eq_ofNat _)
      fun s v => flagsAfter_zFlag_iff s (sub_one_eq_zero_iff v),
    resultByDest_of_fileToDest (fun _ _ _ => (rfl : execIncf _ _ _ = _)) (fun _ _ => add_one_eq_ofNat _)
      fun s v => flagsAfter_zFlag_iff s (add_one_eq_zero_iff v),
    resultByDest_of_fileToDest (fun _ _ _ => (rfl : execMovf _ _ _ = _)) (fun _ _ => rfl)
      fun _ _ => flagsAfter_zFlag _ _⟩

/-! ## Rotates and swap (R153, R154, R156) -/

section Rotates

variable (v : Byte) (c : Bool)

/-- The number of two fields side by side. -/
theorem append_toNat {m n : Nat} (x : BitVec m) (y : BitVec n) : (x ++ y).toNat = x.toNat * 2 ^ n + y.toNat := by
  rw [BitVec.toNat_append, ← Nat.shiftLeft_add_eq_or_of_lt y.isLt, Nat.shiftLeft_eq]

theorem rotateLeft_eq_ofNat :
    v.extractLsb' 0 7 ++ BitVec.ofBool c = BitVec.ofNat 8 (2 * v.toNat + c.toNat) := by
  apply BitVec.eq_of_toNat_eq
  have hc := c.toNat_lt
  rw [append_toNat, BitVec.extractLsb'_toNat, BitVec.toNat_ofBool, BitVec.toNat_ofNat, Nat.shiftRight_zero]
  omega

theorem rotateRight_eq_ofNat :
    BitVec.ofBool c ++ v.extractLsb' 1 7 = BitVec.ofNat 8 (v.toNat / 2 + 128 * c.toNat) := by
  apply BitVec.eq_of_toNat_eq
  have hc := c.toNat_lt
  have hv := v.isLt
  rw [append_toNat, BitVec.extractLsb'_toNat, BitVec.toNat_ofBool, BitVec.toNat_ofNat,
    Nat.shiftRight_eq_div_pow]
  omega

theorem swapNibbles_eq_ofNat :
    v.extractLsb' 0 4 ++ v.extractLsb' 4 4 = BitVec.ofNat 8 (v.toNat % 16 * 16 + v.toNat / 16) := by
  apply BitVec.eq_of_toNat_eq
  have hv := v.isLt
  have hhigh : v.toNat / 16 < 16 := by omega
  rw [append_toNat, BitVec.extractLsb'_toNat, BitVec.extractLsb'_toNat, BitVec.toNat_ofNat,
    Nat.shiftRight_zero, Nat.shiftRight_eq_div_pow, show 2 ^ 4 = 16 from rfl, Nat.mod_eq_of_lt hhigh]
  omega

theorem bit7_eq_decide : v.getLsbD 7 = decide (128 ≤ v.toNat) := by
  have hv := v.isLt
  rw [BitVec.getLsbD, Nat.testBit_eq_decide_div_mod_eq, decide_eq_decide]
  omega

theorem bit0_eq_decide : v.getLsbD 0 = decide (v.toNat % 2 = 1) := by
  rw [BitVec.getLsbD, Nat.testBit_zero]

end Rotates

/-- Settles O13: the nine bits and the nibbles as one number each. -/
theorem rotateAndSwapResults : Obligations.RotateAndSwapResults :=
  ⟨resultByDest_of_fileToDest (fun _ _ _ => (rfl : execRlf _ _ _ = _)) (fun _ _ => rotateLeft_eq_ofNat _ _)
      fun s v => (flagsAfter_cFlag s _).trans (by rw [bit7_eq_decide]),
    resultByDest_of_fileToDest (fun _ _ _ => (rfl : execRrf _ _ _ = _)) (fun _ _ => rotateRight_eq_ofNat _ _)
      fun s v => (flagsAfter_cFlag s _).trans (by rw [bit0_eq_decide]),
    resultByDest_of_fileToDest (fun _ _ _ => (rfl : execSwapf _ _ _ = _)) (fun _ _ => swapNibbles_eq_ofNat _)
      fun s _ => flagsAfter_noFlags s⟩

/-! ## CLRF and MOVWF (R142, R151) -/

/-- Settles O14: the results do not depend on the value read. -/
theorem clrfAndMovwfResults : Obligations.ClrfAndMovwfResults :=
  ⟨resultInGpr_of_fileToDest (fun _ _ => (rfl : execClrf _ _ = _)) (fun _ _ => rfl)
      fun s _ => flagsAfter_zFlag 0 s,
    resultInGpr_of_fileToDest (fun _ _ => (rfl : execMovwf _ _ = _)) (fun _ _ => rfl)
      fun s _ => flagsAfter_noFlags s⟩

/-! ## DECFSZ and INCFSZ (R146, R148, R184) -/

section Skip

variable {f : FileAddr} {s : State} {n : Nat} {i : Instr}

theorem fileToDestSkip_w (op : Byte → Byte) (h : Readable f s)
    (hi : skipsOnZero i (op (fileValue f s)) = decide (op (fileValue f s) = 0)) :
    fileToDestSkip f .w op s =
      .next { passed i (op (fileValue f s)) (afterRead f s) with w := op (fileValue f s) } := by
  rw [fileToDestSkip_of_readable op h (.inl rfl), passed_eq_skipIf, hi]
  cases decide (op (fileValue f s) = 0) <;> rfl

theorem fileToDestSkip_gpr (op : Byte → Byte) (h : fileKind f s = .gpr n)
    (hi : skipsOnZero i (op (gprRead s.gpr n)) = decide (op (gprRead s.gpr n) = 0)) :
    ∃ t, fileToDestSkip f .f op s = .next t ∧ gprRead t.gpr n = op (gprRead s.gpr n) ∧
      (∀ m, m ≠ n → gprRead t.gpr m = gprRead s.gpr m) ∧
      t = { passed i (op (gprRead s.gpr n)) s with gpr := t.gpr } := by
  have hr : Readable f s := readable_of_fileKind h nofun nofun nofun
  have hv : fileValue f s = gprRead s.gpr n := memRead_gpr h
  have hk : regKind (oneCycle s).cfg (dataAddr f s) = .gpr n := h
  have hp : fileKind f s ≠ .pcl := by rw [h]; nofun
  rw [fileToDestSkip_of_readable op hr (.inr hp), passed_eq_skipIf, hv, afterRead_of_not_port h nofun, writeDest,
    memWrite_gpr _ _ hk, hi]
  cases decide (op (gprRead s.gpr n) = 0) <;>
    exact ⟨_, rfl, gprRead_gprWrite_self _ _ _, fun m hm => gprRead_gprWrite_ne _ _ hm, rfl⟩

end Skip

/-- Settles O16: both instructions are the shape with the skip, into W and into a general purpose register. -/
theorem decfszIncfszResultsAndSkip : Obligations.DecfszIncfszResultsAndSkip := fun _ _ =>
  ⟨fun h => ⟨fileToDestSkip_w (· - 1) h rfl, fileToDestSkip_w (· + 1) h rfl⟩,
    fun _ h => ⟨fileToDestSkip_gpr (· - 1) h rfl, fileToDestSkip_gpr (· + 1) h rfl⟩⟩

/-! ## BCF and BSF (R180, R181) -/

section Bits

variable (b : BitNum) {j : Nat} (v : Byte)

theorem bitMask_getLsbD (h : j < 8) : (bitMask b).getLsbD j = decide (j = b.toNat) := by
  rw [bitMask, BitVec.getLsbD_shiftLeft, BitVec.getLsbD_one, decide_eq_true h, decide_eq_true (by decide : 0 < 8),
    Bool.true_and, Bool.true_and, ← decide_not, ← Bool.decide_and, decide_eq_decide]
  omega

theorem clearBit_getLsbD (h : j < 8) :
    (v &&& ~~~(bitMask b)).getLsbD j = (decide (j ≠ b.toNat) && v.getLsbD j) := by
  rw [BitVec.getLsbD_and, BitVec.getLsbD_not, bitMask_getLsbD b h, decide_eq_true h, Bool.true_and, Bool.and_comm,
    decide_not]

theorem setBit_getLsbD (h : j < 8) : (v ||| bitMask b).getLsbD j = (decide (j = b.toNat) || v.getLsbD j) := by
  rw [BitVec.getLsbD_or, bitMask_getLsbD b h, Bool.or_comm]

end Bits

/-- Settles O17: the mask has bit `b` alone. -/
theorem bcfAndBsfChangeOneBit : Obligations.BcfAndBsfChangeOneBit := by
  intro f b s n h
  have hkept : ∀ m v, m ≠ n → gprRead (gprWrite s.gpr n v) m = gprRead s.gpr m := fun m v hm =>
    gprRead_gprWrite_ne _ v hm
  constructor
  · refine ⟨_, fileToDest_gpr (fun a => (a &&& ~~~(bitMask b), noFlags)) h, fun j hj => ?_, fun m => hkept m _,
      rfl⟩
    exact (congrArg (·.getLsbD j) (gprRead_gprWrite_self _ _ _)).trans (clearBit_getLsbD b _ hj)
  · refine ⟨_, fileToDest_gpr (fun a => (a ||| bitMask b, noFlags)) h, fun j hj => ?_, fun m => hkept m _, rfl⟩
    exact (congrArg (·.getLsbD j) (gprRead_gprWrite_self _ _ _)).trans (setBit_getLsbD b _ hj)

/-! ## ADDLW and SUBLW (R190, R194) -/

section Literal

variable {w : InstrWord}

theorem decode_addlw (h : w &&& 0x3E00 = 0x3E00) : decode w = .instr (.addlw (fieldK8 w)) := by
  obtain ⟨op, hw, hop⟩ := LiteralToW.eq_encodeLiteral_of_and (m := ~~~1) (op := 0xE) h
  exact (congrArg decode hw).trans (Canonical.decode_addlw_opcode hop)

theorem decode_sublw (h : w &&& 0x3E00 = 0x3C00) : decode w = .instr (.sublw (fieldK8 w)) := by
  obtain ⟨op, hw, hop⟩ := LiteralToW.eq_encodeLiteral_of_and (m := ~~~1) (op := 0xC) h
  exact (congrArg decode hw).trans (Canonical.decode_sublw_opcode hop)

theorem literalToW_eq (r : Byte) (y : FlagUpdate) (s : State) :
    literalToW r y s = .next (withFlags (flagsAfter y s) { oneCycle s with w := r }) := rfl

/-- Settles O32: the words decode whatever their don't-care bit, and the flags are those of ADDWF and SUBWF. -/
theorem addlwAndSublwResults : Obligations.AddlwAndSublwResults := by
  refine ⟨fun _ => decode_addlw, fun _ => decode_sublw, fun k s => ⟨?_, ?_⟩⟩
  · rw [← flagsAfter_addFlags s.w k s]
    exact literalToW_eq (s.w + k) (addFlags s.w k) s
  · rw [← flagsAfter_subFlags k s.w s]
    exact literalToW_eq (k - s.w) (subFlags k s.w) s

end Literal

end Sys2Proof.FileResults

/-! SUPPORT, O19 to O31. An instruction that `fileWrite` lists stores its result by the one equation of the
destination's kind, after the read of that kind, with its flags and its skip; what is left of each special destination
is that one equation (R66 to R74). Reads and the register map beside them. -/

namespace Sys2Proof.SpecialRegisters

open Machine Claims Registers

/-! ## Refused accesses (R67, R158) -/

section Refused

variable {f : FileAddr} {s : State} {r : Refusal}

theorem fileToDest_of_refused (d : Dest) (op : Byte → Byte × FlagUpdate)
    (h : accessRefusal s.cfg (dataAddr f s) = some r) : fileToDest f d op s = .refused r :=
  withFile_of_refused _ h

/-- PCL is never refused, so the refusal of the access comes first. -/
theorem fileToDestSkip_of_refused (d : Dest) (op : Byte → Byte)
    (h : accessRefusal s.cfg (dataAddr f s) = some r) : fileToDestSkip f d op s = .refused r := by
  have hp : regKind s.cfg (dataAddr f s) ≠ .pcl := by
    intro hk
    simp [accessRefusal, hk] at h
  rw [fileToDestSkip, decide_eq_false hp, Bool.and_false, if_neg Bool.false_ne_true]
  exact withFile_of_refused _ h

/-- Every instruction with a file operand reads it, so a refused access ends it. -/
theorem exec_of_refused {i : Instr} (hi : fileOperand i = some f)
    (h : accessRefusal s.cfg (dataAddr f s) = some r) : exec i s = .refused r := by
  cases i with
  | addwf _ d => cases hi; exact (fileToDest_of_refused d _ h : execAddwf _ d s = _)
  | andwf _ d => cases hi; exact (fileToDest_of_refused d _ h : execAndwf _ d s = _)
  | clrf _ => cases hi; exact (fileToDest_of_refused .f _ h : execClrf _ s = _)
  | comf _ d => cases hi; exact (fileToDest_of_refused d _ h : execComf _ d s = _)
  | decf _ d => cases hi; exact (fileToDest_of_refused d _ h : execDecf _ d s = _)
  | decfsz _ d => cases hi; exact fileToDestSkip_of_refused d _ h
  | incf _ d => cases hi; exact (fileToDest_of_refused d _ h : execIncf _ d s = _)
  | incfsz _ d => cases hi; exact fileToDestSkip_of_refused d _ h
  | iorwf _ d => cases hi; exact (fileToDest_of_refused d _ h : execIorwf _ d s = _)
  | movf _ d => cases hi; exact (fileToDest_of_refused d _ h : execMovf _ d s = _)
  | movwf _ => cases hi; exact (fileToDest_of_refused .f _ h : execMovwf _ s = _)
  | rlf _ d => cases hi; exact (fileToDest_of_refused d _ h : execRlf _ d s = _)
  | rrf _ d => cases hi; exact (fileToDest_of_refused d _ h : execRrf _ d s = _)
  | subwf _ d => cases hi; exact (fileToDest_of_refused d _ h : execSubwf _ d s = _)
  | swapf _ d => cases hi; exact (fileToDest_of_refused d _ h : execSwapf _ d s = _)
  | xorwf _ d => cases hi; exact (fileToDest_of_refused d _ h : execXorwf _ d s = _)
  | bcf _ b => cases hi; exact (fileToDest_of_refused .f _ h : execBcf _ b s = _)
  | bsf _ b => cases hi; exact (fileToDest_of_refused .f _ h : execBsf _ b s = _)
  | btfsc _ b => cases hi; exact BitTests.testSkip_of_refused false h
  | btfss _ b => cases hi; exact BitTests.testSkip_of_refused true h
  | _ => cases hi

end Refused

/-- Settles O19: the access names its own refusal, and every instruction with a file operand makes the access. -/
theorem accessToRefusedRegistersIsRefused : Obligations.AccessToRefusedRegistersIsRefused := by
  intro i f s hi
  refine ⟨fun name hk => exec_of_refused hi ?_, fun hk => exec_of_refused hi ?_,
    fun hk hind => exec_of_refused hi ?_⟩
  all_goals
    rw [fileKind] at hk
    simp only [accessRefusal, hk]
  rw [hind]
  rfl

/-! ## Reads (R66 to R73) -/

section Reads

variable {s : State}

theorem bitAt_getLsbD (b : Bool) {j n : Nat} (h : j < 8) : (bitAt b n).getLsbD j = (b && decide (j = n)) := by
  cases b with
  | false => simp [bitAt]
  | true =>
    rw [bitAt, if_pos rfl, BitVec.getLsbD_shiftLeft, BitVec.getLsbD_one, decide_eq_true h,
      decide_eq_true (by decide : 0 < 8), Bool.true_and, Bool.true_and, Bool.true_and, ← decide_not,
      ← Bool.decide_and, decide_eq_decide]
    omega

/-- STATUS under the layout of R41, bit by bit. -/
theorem statusByte_p84 (h : s.cfg.statusLayout = statusLayoutP84) :
    statusByte s = BitVec.ofBool s.irp ++ BitVec.ofBool s.rp1 ++ BitVec.ofBool s.rp0 ++
      BitVec.ofBool s.toBit ++ BitVec.ofBool s.pdBit ++ BitVec.ofBool s.z ++ BitVec.ofBool s.dc ++
      BitVec.ofBool s.c := by
  rw [statusByte, h, statusLayoutP84]
  apply BitVec.eq_of_getLsbD_eq
  intro j hj
  simp only [BitVec.getLsbD_or, bitAt_getLsbD _ hj, BitVec.getLsbD_append]
  have hj' : j = 0 ∨ j = 1 ∨ j = 2 ∨ j = 3 ∨ j = 4 ∨ j = 5 ∨ j = 6 ∨ j = 7 := by omega
  rcases hj' with rfl | rfl | rfl | rfl | rfl | rfl | rfl | rfl <;> simp

end Reads

/-- Settles O30: one equation per kind; PCL and PCLATH are the same bits cut and filled up in other words. -/
theorem readsOfCoreRegisters : Obligations.ReadsOfCoreRegisters := by
  intro f s
  refine ⟨fun h => ?_, fun h => ?_, memRead_fsr, memRead_intcon, memRead_option, memRead_tmr0, fun _ => memRead_gpr,
    fun _ => memRead_tris, fun hl h => (memRead_status h).trans (statusByte_p84 hl), memRead_indf,
    memRead_unimplemented, readEffect_of_not_port _ _⟩
  · exact (memRead_pcl h).trans (BitVec.setWidth_eq_extractLsb' (by decide))
  · exact (memRead_pclath h).trans (BitVec.setWidth_eq_append (by decide))

/-- Settles O28: one bit above the seven of `f`. -/
theorem dataAddressOfAFileOperand : Obligations.DataAddressOfAFileOperand := by
  intro f s
  constructor
  · rintro hind rfl
    simp [dataAddr, hind]
  · intro h
    have hdirect : ¬ (s.cfg.hasIndirect && f == 0) = true := by
      rw [Bool.and_eq_true, beq_iff_eq]
      rintro ⟨hind, h0⟩
      rcases h with h | h
      · rw [hind] at h
        cases h
      · exact h h0
    rw [dataAddr, if_neg hdirect, FileResults.append_toNat, BitVec.toNat_ofBool]
    cases s.cfg.bankBit && s.rp0 <;> simp [Nat.add_comm]

/-- Settles O29: the map at each of its 256 addresses. -/
theorem registerMapOfProfileP84 : Obligations.RegisterMapOfProfileP84 := by
  unfold Obligations.RegisterMapOfProfileP84
  decide

/-! ## Ports (R36, R72) -/

section Ports

variable (p q : PortId) (s : State)

theorem getPort_readPort : getPort q (readPort p s) =
    if q = p then { getPort q s with pins := none } else getPort q s := by
  cases p <;> cases q <;> rfl

theorem portValue_masked : portValue p s &&& ~~~(portMask s.cfg p) = 0 := by
  rw [portValue, BitVec.and_assoc, BitVec.and_not_self]
  exact BitVec.and_zero

theorem portValue_of_pins {v : Byte} (h : (getPort p s).pins = some v) : portValue p s = v &&& portMask s.cfg p := by
  rw [portValue, h]
  rfl

end Ports

/-- Settles O31: a port read is `portValue`, and `readPort` after it. -/
theorem portReadGivesThePins : Obligations.PortReadGivesThePins := by
  intro f s p h
  have hv : fileValue f s = portValue p s := memRead_port h
  have ha : afterRead f s = readPort p s := readEffect_port h
  rw [hv, ha]
  refine ⟨rfl, fun _ => portValue_of_pins p s, portValue_masked p s, fun q => ?_, fun q hq => ?_, ?_, rfl, rfl⟩
  · rw [getPort_readPort]
    split <;> exact ⟨rfl, rfl⟩
  · rw [getPort_readPort, if_neg hq]
  · rw [getPort_readPort, if_pos rfl]

/-! ## Writes of registers that are plain stores (R71, R73) -/

/-- A register that the machine reads without an effect, and a write to which changes neither PC nor the flags. -/
def plainKind (k : RegKind) : Bool :=
  match k with
  | .port _ => false
  | .pcl => false
  | .status => false
  | .device _ => false
  | .refused => false
  | _ => true

section Plain

variable {i : Instr} {s : State} {v : Byte} {f : FileAddr} {r : Byte} {u : FlagValues} {a : Bool} {k : RegKind}

/-- An instruction that writes such a register stores its result with one write, sets its flags, and may skip. -/
theorem exec_of_plain_write (h : fileWrite i s v = some (f, r, u, a)) (hk : fileKind f s = k)
    (hv : fileValue f s = v) (hplain : plainKind k = true) (hind : k = .indf → s.cfg.hasIndirect = true) :
    exec i s = .next (withFlags u
      (skipIf (skipsOnZero i r) (memWrite (dataAddr f s) r a (oneCycle s)))) := by
  have hr : Readable f s := readable_of_fileKind hk (by rintro _ rfl; cases hplain) (by rintro rfl; cases hplain) hind
  have ha : afterRead f s = s := afterRead_of_not_port hk (by rintro _ rfl; cases hplain)
  have hx := exec_of_fileWrite_flags (hv ▸ h) hr (hk ▸ by rintro rfl; cases hplain)
    (hk ▸ by rintro rfl; cases hplain)
  rwa [ha] at hx

end Plain

/-- Settles O22: each register is stored by its one equation. -/
theorem writesToFsrPclathIntconStore : Obligations.WritesToFsrPclathIntconStore := by
  intro i s f r u a
  rw [passed_eq_skipIf]
  refine ⟨fun h hk => ?_, fun h hk => ?_, fun h hk => ?_⟩
  · rw [exec_of_plain_write h hk (memRead_fsr hk) rfl nofun, memWrite_fsr (s := oneCycle s) _ _ hk]
    cases skipsOnZero i r <;> rfl
  · rw [exec_of_plain_write h hk (memRead_pclath hk) rfl nofun, memWrite_pclath (s := oneCycle s) _ _ hk,
      BitVec.setWidth_eq_extractLsb' (by decide)]
    cases skipsOnZero i r <;> rfl
  · rw [exec_of_plain_write h hk (memRead_intcon hk) rfl nofun, memWrite_intcon (s := oneCycle s) _ _ hk]
    cases skipsOnZero i r <;> rfl

/-- Settles O23: the count is drawn only where the assignment changes. -/
theorem writeToOptionStores : Obligations.WriteToOptionStores := by
  intro i s f r u a h hk
  rw [exec_of_plain_write h hk (memRead_option hk) rfl nofun, memWrite_option (s := oneCycle s) _ _ hk,
    passed_eq_skipIf]
  refine ⟨_, rfl, ?_, fun hsame => ?_⟩
  · cases skipsOnZero i r <;> rfl
  · have hps : (setOption r (oneCycle s)).wdtps = s.wdtps := if_pos hsame
    rw [← hps]
    cases skipsOnZero i r <;> rfl

/-- Settles O24: the write ends its own cycle's count, and only a skip adds one after it. -/
theorem writeToTmr0ClearsThePrescaler : Obligations.WriteToTmr0ClearsThePrescaler := by
  intro i s f r u a h hk
  rw [exec_of_plain_write h hk (memRead_tmr0 hk) rfl nofun, memWrite_tmr0 (s := oneCycle s) _ _ hk, passed_eq_skipIf]
  cases skipsOnZero i r <;> rfl

/-- Settles O26: `writeTris` restricts the value to the implemented bits of the port named. -/
theorem writeToTrisStoresImplementedBits : Obligations.WriteToTrisStoresImplementedBits := by
  intro i s f r u a p h hk
  rw [exec_of_plain_write h hk (memRead_tris hk) rfl nofun, memWrite_tris (s := oneCycle s) _ _ hk, passed_eq_skipIf]
  refine ⟨_, rfl, ?_, fun q hq => ?_, ?_⟩
  · cases skipsOnZero i r <;> cases p <;> rfl
  · cases skipsOnZero i r <;> cases p <;> cases q <;> first | rfl | exact absurd rfl hq
  · cases skipsOnZero i r <;> rfl

/-- Settles O27: the write is the state itself. -/
theorem discardedWritesStillSetFlags : Obligations.DiscardedWritesStillSetFlags := by
  intro i s f r u a h hk
  rw [passed_eq_skipIf]
  rcases hk with hk | ⟨hk, hind⟩
  · rw [exec_of_plain_write h hk (memRead_unimplemented hk) rfl nofun, memWrite_unimplemented (s := oneCycle s) _ _ hk]
  · rw [exec_of_plain_write h hk (memRead_indf hk) rfl fun _ => hind, memWrite_indf (s := oneCycle s) _ _ hk]

/-! ## PCL, STATUS and the ports (R69, R70, R72) -/

/-- Settles O20: the one shape writes PCL after its own advance, and the other is refused. -/
theorem writeToPclIsAComputedJump : Obligations.WriteToPclIsAComputedJump := by
  intro i s f r u a h hk
  have hr : Readable f s := readable_of_fileKind hk nofun nofun nofun
  have hv : fileValue f s = (s.pc + 1).setWidth 8 := memRead_pcl hk
  have hk' : regKind (oneCycle s).cfg (dataAddr f s) = .pcl := hk
  cases fileWrite_shape h with
  | dest op exec_eq result flags affects not_skip =>
    have hx : exec i s = .next (withFlags u (twoCycles (s.pclath ++ r) s)) := by
      rw [exec_eq, fileToDest_of_readable op hr, hv, afterRead_of_not_port hk nofun, result, writeDest,
        memWrite_pcl _ _ hk', ← flags]
      exact congrArg Host.Outcome.next (setFlags_eq_withFlags ⟨rfl, rfl, rfl⟩)
    rw [hx]
    split
    · cases not_skip 0
    · cases not_skip 0
    · rfl
  | skip op exec_eq result flags affects is_skip =>
    rw [exec_eq, fileToDestSkip_of_pcl op hk]
    rcases is_skip with rfl | rfl <;> rfl

theorem eq_noFlags_of_affectsAny {y : FlagUpdate} (h : affectsAny y = false) : y = noFlags := by
  obtain ⟨c, dc, z⟩ := y
  cases c <;> cases dc <;> cases z <;> first | rfl | cases h

theorem writeStatus_p84 (v : Byte) (b : Bool) {s : State} (h : s.cfg.statusLayout = statusLayoutP84) :
    writeStatus v b s = { s with
      irp := v.getLsbD 7, rp1 := v.getLsbD 6, rp0 := v.getLsbD 5
      z := if b then s.z else v.getLsbD 2
      dc := if b then s.dc else v.getLsbD 1
      c := if b then s.c else v.getLsbD 0 } := by
  rw [writeStatus, h, statusLayoutP84]

/-- Settles O21: the flags are the instruction's where it affects any, and else it updates none after the write. -/
theorem statusReadsWholeAndWritesAreMasked : Obligations.StatusReadsWholeAndWritesAreMasked := by
  intro s hl
  refine ⟨fun f hk => (memRead_status hk).trans (statusByte_p84 hl), fun i f r u a h hk => ?_⟩
  have hr : Readable f s := readable_of_fileKind hk nofun nofun nofun
  have hk' : regKind (oneCycle s).cfg (dataAddr f s) = .status := hk
  have hl' : (oneCycle s).cfg.statusLayout = statusLayoutP84 := hl
  obtain ⟨y, rfl, rfl, hx⟩ := exec_of_fileWrite h hr (hk ▸ nofun)
  rw [hx, afterRead_of_not_port hk nofun, memWrite_status _ _ hk', writeStatus_p84 _ _ hl', passed_eq_skipIf]
  cases ha : affectsAny y with
  | true => cases skipsOnZero i r <;> rfl
  | false =>
    rw [eq_noFlags_of_affectsAny ha]
    cases skipsOnZero i r <;> rfl

/-- Settles O25: the read is the port's, and the write changes its latch alone. -/
theorem writeToPortUsesThePins : Obligations.WriteToPortUsesThePins := by
  intro i s f r u a p h hk
  have hr : Readable f s := readable_of_fileKind hk nofun nofun nofun
  have hv : fileValue f s = portValue p s := memRead_port hk
  have ha : afterRead f s = readPort p s := readEffect_port hk
  have hk' : regKind (oneCycle (readPort p s)).cfg (dataAddr f s) = .port p := hk
  rw [exec_of_fileWrite_flags (hv ▸ h) hr (hk ▸ nofun) (hk ▸ nofun), ha, memWrite_port _ _ hk', passed_eq_skipIf]
  refine ⟨_, rfl, ?_, fun q => ?_, fun q hq => ?_, ?_⟩
  · cases skipsOnZero i r <;> cases p <;> rfl
  · cases skipsOnZero i r <;> cases p <;> cases q <;> rfl
  · cases skipsOnZero i r <;> cases p <;> cases q <;> first | rfl | exact absurd rfl hq
  · cases skipsOnZero i r <;> cases p <;> rfl

end Sys2Proof.SpecialRegisters

/-! SUPPORT, O36 to O42. What a push and a pop answer, by the room on the stack and the mode of the configuration, and
the control instructions in those words; CLRWDT, SLEEP, OPTION and TRIS are one shared operation each after the advance
(R32, R33, R200 to R206, R220, R221). -/

namespace Sys2Proof.Control

open Machine Claims

/-! ## The stack (R32, R33) -/

section Stack

variable {s : State} (v : ProgAddr)

theorem push_of_room (h : s.stack.length < s.cfg.stackDepth) : push v s = .ok { s with stack := v :: s.stack } :=
  if_pos h

theorem push_of_full_fault (h : s.cfg.stackDepth ≤ s.stack.length) (hm : s.cfg.stackMode = .fault) :
    push v s = .error (.stackOverflow s.pc) := by
  rw [push, if_neg (Nat.not_lt.2 h), hm]

theorem push_of_full_circular (h : s.cfg.stackDepth ≤ s.stack.length) (hm : s.cfg.stackMode = .circular) :
    push v s = .ok { s with stack := (v :: s.stack).take s.cfg.stackDepth } := by
  rw [push, if_neg (Nat.not_lt.2 h), hm]

theorem pop_of_cons {rest : List ProgAddr} (h : s.stack = v :: rest) : pop s = .ok (v, { s with stack := rest }) := by
  rw [pop, h]

theorem pop_of_empty_fault (h : s.stack = []) (hm : s.cfg.stackMode = .fault) :
    pop s = .error (.stackUnderflow s.pc) := by
  rw [pop, h, hm]

theorem pop_of_empty_circular (h : s.stack = []) (hm : s.cfg.stackMode = .circular) :
    pop s = .ok (Config.freeAddr s.draws, { s with draws := s.draws + 1 }) := by
  rw [pop, h, hm]

end Stack

/-! ## CALL (R200) -/

section Call

variable {s t : State} (k : BitVec 11)

theorem exec_call_of_ok (h : push (s.pc + 1) s = .ok t) :
    exec (.call k) s = .next (twoCycles (jumpTarget k s) t) := by
  change execCall k s = _
  rw [execCall, h, ← Jumps.jump_advance]

theorem exec_call_of_error {e : Fault} (h : push (s.pc + 1) s = .error e) : exec (.call k) s = .fault e := by
  change execCall k s = _
  rw [execCall, h]

theorem decode_call {w : InstrWord} (h : w &&& 0x3800 = 0x2000) : decode w = .instr (.call (fieldK11 w)) :=
  (congrArg decode (Jumps.eq_encodeJump_of_and (op := 0) h)).trans (Laws.RoundTrip.call (fieldK11 w) rfl)

end Call

/-- Settles O36: the target is GOTO's, and the three cases are those of the push. -/
theorem callPushesAndJumps : Obligations.CallPushesAndJumps :=
  ⟨fun _ => decode_call, fun k s =>
    ⟨jumpTarget k s, Jumps.jumpTarget_low k s, Jumps.jumpTarget_high k s,
      fun h => exec_call_of_ok k (push_of_room _ h),
      fun h hm => exec_call_of_error k (push_of_full_fault _ h hm),
      fun h hm => exec_call_of_ok k (push_of_full_circular _ h hm)⟩⟩

/-! ## The returns (R202, R203, R204) -/

section Returns

variable {s t : State} {a : ProgAddr} {e : Fault} (k : Byte)

theorem exec_ret_of_ok (h : pop s = .ok (a, t)) : exec .ret s = .next (twoCycles a t) := by
  change returnFromSubroutine s = _
  rw [returnFromSubroutine, h, ← Jumps.jump_advance]

theorem exec_retlw_of_ok (h : pop s = .ok (a, t)) : exec (.retlw k) s = .next { twoCycles a t with w := k } := by
  change execRetlw k s = _
  rw [execRetlw, h]
  rfl

theorem exec_retfie_of_ok (h : pop s = .ok (a, t)) :
    exec .retfie s = .next { twoCycles a t with intcon := t.intcon ||| 0x80 } := by
  change returnFromInterrupt s = _
  rw [returnFromInterrupt, h]
  rfl

theorem exec_ret_of_error (h : pop s = .error e) : exec .ret s = .fault e := by
  change returnFromSubroutine s = _
  rw [returnFromSubroutine, h]

theorem exec_retlw_of_error (h : pop s = .error e) : exec (.retlw k) s = .fault e := by
  change execRetlw k s = _
  rw [execRetlw, h]

theorem exec_retfie_of_error (h : pop s = .error e) : exec .retfie s = .fault e := by
  change returnFromInterrupt s = _
  rw [returnFromInterrupt, h]

theorem decode_retlw {w : InstrWord} (h : w &&& 0x3C00 = 0x3400) : decode w = .instr (.retlw (fieldK8 w)) := by
  obtain ⟨op, hw, hop⟩ := LiteralToW.eq_encodeLiteral_of_and (m := ~~~3) (op := 0x4) h
  exact (congrArg decode hw).trans (Canonical.decode_retlw_opcode hop)

end Returns

/-- Settles O37: the three cases of each return are those of the pop. -/
theorem returnsPopThePc : Obligations.ReturnsPopThePc := by
  refine ⟨by decide, by decide, fun _ => decode_retlw, fun s k =>
    ⟨fun a rest h => ?_, fun h hm => ?_, fun h hm => ?_⟩⟩
  · have hpop := pop_of_cons a h
    exact ⟨exec_ret_of_ok hpop, exec_retlw_of_ok k hpop, exec_retfie_of_ok hpop⟩
  · have hpop := pop_of_empty_fault h hm
    exact ⟨exec_ret_of_error hpop, exec_retlw_of_error k hpop, exec_retfie_of_error hpop⟩
  · have hpop := pop_of_empty_circular h hm
    exact ⟨_, _, exec_ret_of_ok hpop, exec_retlw_of_ok k hpop, exec_retfie_of_ok hpop⟩

/-! ## CLRWDT and SLEEP (R205, R206) -/

section Watchdog

variable (s : State)

theorem clearWatchdog_advance : clearWatchdog (advance s) = { oneCycle s with
    wdt := 0, wdtAge := 0, wdtps := if s.optionReg.getLsbD 3 then 0 else s.wdtps } := rfl

theorem exec_clrwdt :
    exec .clrwdt s = .next { clearWatchdog (advance s) with toBit := true, pdBit := true } := rfl

theorem exec_sleep_of_not_nop (h : s.cfg.sleepNopIfPending = false ∨ intReq s = false) :
    exec .sleep s =
      .next { clearWatchdog (advance s) with toBit := true, pdBit := false, sleeping := true } := by
  have hnop : ¬ (s.cfg.sleepNopIfPending && intReq s) = true := by
    rcases h with h | h <;> simp [h]
  exact if_neg hnop

theorem exec_sleep_of_nop (h : s.cfg.sleepNopIfPending = true) (hr : intReq s = true) :
    exec .sleep s = .next (advance s) := by
  have hnop : (s.cfg.sleepNopIfPending && intReq s) = true := by rw [h, hr]; rfl
  exact if_pos hnop

end Watchdog

/-- Settles O39: the Watchdog is cleared after the advance. -/
theorem clrwdtClearsTheWatchdog : Obligations.ClrwdtClearsTheWatchdog :=
  ⟨by decide, fun s => (exec_clrwdt s).trans (by rw [clearWatchdog_advance])⟩

/-- Settles O40: SLEEP clears the Watchdog as CLRWDT does, unless it is the NOP of R247. -/
theorem sleepEntersStandby : Obligations.SleepEntersStandby := fun s =>
  ⟨fun h => (exec_sleep_of_not_nop s h).trans (by rw [clearWatchdog_advance]),
    fun h hr => (exec_sleep_of_nop s h hr).trans (by rw [ClrwNop.advance_eq_oneCycle])⟩

/-! ## OPTION and TRIS (R220, R221) -/

/-- Settles O41: OPTION is the write of O23 without a file operand. -/
theorem optionLoadsFromW : Obligations.OptionLoadsFromW :=
  ⟨by decide, fun s => ⟨setOption s.w (oneCycle s), rfl, rfl, fun h => if_pos h⟩⟩

section Tris

variable {s : State} {n : BitVec 3} {p : PortId}

theorem exec_tris_of_present {m : Byte} (hn : trisPort n = some p) (hp : portBits s.cfg p = some m) :
    exec (.tris n) s = .next (writeTris p s.w (oneCycle s)) := by
  change execTris n s = _
  simp only [execTris, hn, hp, ClrwNop.advance_eq_oneCycle]

theorem exec_tris_of_absent (hn : trisPort n = some p) (hp : portBits s.cfg p = none) :
    exec (.tris n) s = .refused (.refusedForm s.pc) := by
  change execTris n s = _
  simp only [execTris, hn, hp]

theorem portMask_of_portBits {c : Config} {m : Byte} (hp : portBits c p = some m) : portMask c p = m := by
  rw [portMask, hp, Option.getD_some]

theorem writeTris_oneCycle {m : Byte} (hp : portBits s.cfg p = some m) :
    writeTris p s.w (oneCycle s) = setPort p { getPort p s with tris := s.w &&& m } (oneCycle s) := by
  rw [← portMask_of_portBits hp]
  cases p <;> rfl

end Tris

/-- Settles O42: each number names one port, present or absent. -/
theorem trisLoadsFromW : Obligations.TrisLoadsFromW := by
  refine ⟨by decide, by decide, by decide, fun s =>
    ⟨fun m h => ?_, fun m h => ?_, fun m h => ?_, fun h => ?_, fun h => ?_, fun h => ?_⟩⟩
  · rw [exec_tris_of_present (n := 5) (p := .a) rfl h, writeTris_oneCycle (p := .a) h]; rfl
  · rw [exec_tris_of_present (n := 6) (p := .b) rfl h, writeTris_oneCycle (p := .b) h]; rfl
  · rw [exec_tris_of_present (n := 7) (p := .c) rfl h, writeTris_oneCycle (p := .c) h]; rfl
  · exact exec_tris_of_absent (n := 5) (p := .a) rfl h
  · exact exec_tris_of_absent (n := 6) (p := .b) rfl h
  · exact exec_tris_of_absent (n := 7) (p := .c) rfl h

end Sys2Proof.Control

/-! SUPPORT, O6, O38, O49, O50, O54 to O57 and O59. A step is a boundary, silent or offered, and a boundary answers the
first of its five cases that applies (R239, R251); the entry of an interrupt is a push, and RETFIE after it a pop of
what was pushed (R238, R240); each reset cause has its values (R260, R262). -/

namespace Sys2Proof.Boundaries

open Machine Claims

/-! ## The step and the boundary (R239, R251) -/

section Boundary

variable {s : State} {b : Boundary}

theorem step_of_silent (h : s.inputs = []) : step s = boundaryStep quietBoundary s := by
  change machineStep s = _
  rw [machineStep, h]

theorem step_offered (b : Boundary) (s : State) : step (offered b s) = boundaryStep b s := rfl

theorem boundaryStep_of_reset {line : ResetLine} (h : b.reset = some line) :
    boundaryStep b s = .next (applyReset (resetCauseOf line s) s) := by
  rw [boundaryStep, h]

theorem boundaryStep_of_timeout (h : b.reset = none) (ht : (b.wdtTimeout && wdtDue s) = true) :
    boundaryStep b s = .next (wdtTimeout s) := by
  simp only [boundaryStep, h, ht, if_true]

/-- Without a reset and a time-out, a boundary is the core's own. -/
theorem boundaryStep_of_no_timeout (h : b.reset = none) (ht : (b.wdtTimeout && wdtDue s) = false) :
    boundaryStep b s =
      if s.sleeping then
        if wakeReq s && !b.postpone then .next (intWake s) else .next s
      else if intEntryEnabled s && !b.postpone then thenAgents s (takeInterrupt s)
      else thenAgents s (instrStep s) := by
  simp only [boundaryStep, h, ht, Bool.false_eq_true, if_false]

theorem no_timeout_iff : (b.wdtTimeout && wdtDue s) = false ↔ b.wdtTimeout = false ∨ wdtDue s = false :=
  Bool.and_eq_false_iff

theorem awake_of_intEntryEnabled (h : intEntryEnabled s = true) : s.sleeping = false := by
  simp only [intEntryEnabled, Bool.and_eq_true, Bool.not_eq_true'] at h
  exact h.1.1.1

theorem gie_of_intEntryEnabled (h : intEntryEnabled s = true) : gie s = true := by
  simp only [intEntryEnabled, Bool.and_eq_true] at h
  exact h.1.1.2

theorem boundaryStep_of_entry (h : b.reset = none) (ht : (b.wdtTimeout && wdtDue s) = false)
    (hp : b.postpone = false) (he : intEntryEnabled s = true) :
    boundaryStep b s = thenAgents s (takeInterrupt s) := by
  rw [boundaryStep_of_no_timeout h ht, awake_of_intEntryEnabled he, he, hp]
  rfl

theorem boundaryStep_of_instr (h : b.reset = none) (ht : (b.wdtTimeout && wdtDue s) = false)
    (hs : s.sleeping = false) (he : (intEntryEnabled s && !b.postpone) = false) :
    boundaryStep b s = thenAgents s (instrStep s) := by
  rw [boundaryStep_of_no_timeout h ht, hs, he]
  rfl

theorem boundaryStep_of_asleep (h : b.reset = none) (ht : (b.wdtTimeout && wdtDue s) = false)
    (hs : s.sleeping = true) :
    boundaryStep b s = if wakeReq s && !b.postpone then .next (intWake s) else .next s := by
  rw [boundaryStep_of_no_timeout h ht, hs]
  rfl

end Boundary

/-- Settles O50: the cases of the boundary, in its own order. -/
theorem boundaryPrecedence : Obligations.BoundaryPrecedence := by
  intro b s
  simp only [step_offered]
  refine ⟨fun line h => boundaryStep_of_reset h,
    fun h ht hd => boundaryStep_of_timeout h (by rw [ht, hd]; rfl),
    fun h ht hp he => boundaryStep_of_entry h (no_timeout_iff.2 ht) hp he,
    fun h ht hs he => boundaryStep_of_instr h (no_timeout_iff.2 ht) hs ?_⟩
  rcases he with hp | he
  · rw [hp, Bool.not_true, Bool.and_false]
  · rw [he, Bool.false_and]

/-! ## The instruction (R60) -/

/-- Settles O6: a quiet boundary and one that puts an entry off are the instruction step, and the agents keep their
frame. -/
theorem stepRunsTheDecodedInstruction : Obligations.StepRunsTheDecodedInstruction := by
  intro s word i hs hw hi
  have hinstr := instrStep_of_decode hw hi
  refine ⟨fun hq he => ?_, ?_, fun _ => rfl, fun _ => rfl, fun t => ?_⟩
  · rw [step_of_silent hq, boundaryStep_quiet hs he, hinstr]
  · rw [step_offered, boundaryStep_postponed hs, hinstr]
  · obtain ⟨hframe, hintcon, heeif⟩ := agentsAct_agentFrame s t
    exact ⟨_, rfl, hframe, hintcon, heeif⟩

/-! ## Interrupt entry (R235 to R238) -/

section Entry

variable {s t : State}

theorem takeInterrupt_of_ok (h : push s.pc s = .ok t) :
    takeInterrupt s = .next { twoCycles t.cfg.intVector t with intcon := t.intcon &&& 0x7F } := by
  rw [takeInterrupt, h]
  rfl

theorem takeInterrupt_of_error {e : Fault} (h : push s.pc s = .error e) : takeInterrupt s = .fault e := by
  rw [takeInterrupt, h]

theorem step_of_entry (hq : s.inputs = []) (he : intEntryEnabled s = true) :
    step s = thenAgents s (takeInterrupt s) := by
  rw [step_of_silent hq]
  exact boundaryStep_of_entry rfl rfl rfl he

/-- Some source of P84 has its enable and its flag (R235, R236). -/
theorem intReq_p84_iff (h : s.cfg.intSources = p84.intSources) :
    intReq s = true ↔
      s.intcon.getLsbD 4 = true ∧ s.intcon.getLsbD 1 = true ∨
      s.intcon.getLsbD 5 = true ∧ s.intcon.getLsbD 2 = true ∨
      s.intcon.getLsbD 3 = true ∧ s.intcon.getLsbD 0 = true ∨
      s.intcon.getLsbD 6 = true ∧ s.eeif = true := by
  simp [intReq, h, p84, intSourcesP84, lineRequests, placeBit]

theorem intEntryEnabled_iff :
    intEntryEnabled s = true ↔
      s.sleeping = false ∧ s.afterWake = false ∧ s.intcon.getLsbD 7 = true ∧ intReq s = true := by
  simp only [intEntryEnabled, gie, Bool.and_eq_true, Bool.not_eq_true']
  constructor
  · rintro ⟨⟨⟨hs, hg⟩, hr⟩, ha⟩
    exact ⟨hs, ha, hg, hr⟩
  · rintro ⟨hs, ha, hg, hr⟩
    exact ⟨⟨⟨hs, hg⟩, hr⟩, ha⟩

end Entry

/-- Settles O49: the entry is the push of PC in its three cases. -/
theorem interruptEntryPushesPcAndClearsGie : Obligations.InterruptEntryPushesPcAndClearsGie := by
  intro s
  refine ⟨fun h => by rw [intEntryEnabled_iff, intReq_p84_iff h], fun hq he => ?_⟩
  rw [step_of_entry hq he]
  refine ⟨fun h => ?_, fun h hm => ?_, fun h hm => ?_⟩
  · rw [takeInterrupt_of_ok (Control.push_of_room _ h)]; rfl
  · rw [takeInterrupt_of_error (Control.push_of_full_fault _ h hm)]; rfl
  · rw [takeInterrupt_of_ok (Control.push_of_full_circular _ h hm)]; rfl

/-! ## Call and return, entry and RETFIE (R200, R202, R238, R240) -/

section Resume

variable {s : State}

/-- GIE set, cleared and set again. -/
theorem clear_set_gie (h : gie s = true) : s.intcon &&& 0x7F ||| 0x80 = s.intcon := by
  have hg : s.intcon.getLsbD 7 = true := h
  apply BitVec.eq_of_getLsbD_eq
  intro j hj
  rw [BitVec.getLsbD_or, BitVec.getLsbD_and]
  have hj' : j = 0 ∨ j = 1 ∨ j = 2 ∨ j = 3 ∨ j = 4 ∨ j = 5 ∨ j = 6 ∨ j = 7 := by omega
  rcases hj' with rfl | rfl | rfl | rfl | rfl | rfl | rfl | rfl <;> simp [hg]

/-- The state right after an entry with room on the stack. -/
def entered (s : State) : State :=
  { twoCycles s.cfg.intVector s with stack := s.pc :: s.stack, intcon := s.intcon &&& 0x7F }

theorem takeInterrupt_of_room (h : s.stack.length < s.cfg.stackDepth) : takeInterrupt s = .next (entered s) :=
  takeInterrupt_of_ok (Control.push_of_room _ h)

/-- RETFIE from a state that has the stack of `entered s` pops the address the entry pushed. -/
theorem exec_retfie_of_entered {t : State} (h : t.stack = (entered s).stack) :
    exec .retfie t =
      .next { twoCycles s.pc { t with stack := s.stack } with intcon := t.intcon ||| 0x80 } :=
  Control.exec_retfie_of_ok (Control.pop_of_cons s.pc h)

/-- The agents after an entry clear no flag, and RETFIE sets the one bit the entry cleared. -/
theorem intcon_kept_of_entered {t : State} (h : AgentFrame (entered s) t) :
    s.intcon &&& ~~~(t.intcon ||| 0x80) = 0 := by
  have hmono : (s.intcon &&& 0x7F) &&& ~~~t.intcon = 0 := h.intcon_mono
  have hmask : ~~~(0x80 : Byte) = 0x7F := by decide
  rw [BitVec.not_or, hmask, BitVec.and_comm (~~~t.intcon), ← BitVec.and_assoc]
  exact hmono

end Resume

/-- Settles O38: what is popped is what was pushed; after an entry the agents have acted once in between. -/
theorem callReturnAndEntryRetfieResume : Obligations.CallReturnAndEntryRetfieResume := by
  intro s hroom
  refine ⟨fun k => ?_, fun hq he => ⟨?_, ?_⟩⟩
  · exact ⟨_, _, Control.exec_call_of_ok k (Control.push_of_room _ hroom),
      Control.exec_ret_of_ok (Control.pop_of_cons (s.pc + 1) rfl), rfl⟩
  · refine ⟨entered s, _, takeInterrupt_of_room hroom, exec_retfie_of_entered rfl, ?_⟩
    rw [show (entered s).intcon ||| 0x80 = s.intcon from clear_set_gie (gie_of_intEntryEnabled he)]
    rfl
  · have hstep : step s = .next (agentsAct s (entered s)) := by
      rw [step_of_entry hq he, takeInterrupt_of_room hroom]
      rfl
    have hagents := agentsAct_agentFrame s (entered s)
    have hdue := agentsAct_timer0Due s (entered s)
    have hstack : (agentsAct s (entered s)).stack = (entered s).stack := by rw [hagents.frame]
    refine ⟨_, _, hstep, exec_retfie_of_entered hstack, ?_, intcon_kept_of_entered hagents⟩
    generalize agentsAct s (entered s) = t at hagents hdue ⊢
    rw [hagents.frame, hdue]
    rfl

/-! ## SLEEP and the wake-up (R247) -/

section Wake

variable {s : State}

/-- A waking source of P84 has its enable and its flag: INT, RB or EE. -/
theorem wakeReq_p84_iff (h : s.cfg.intSources = p84.intSources) (hw : s.cfg.wakeSources = p84.wakeSources) :
    wakeReq s = true ↔
      s.intcon.getLsbD 4 = true ∧ s.intcon.getLsbD 1 = true ∨
      s.intcon.getLsbD 3 = true ∧ s.intcon.getLsbD 0 = true ∨
      s.intcon.getLsbD 6 = true ∧ s.eeif = true := by
  simp [wakeReq, h, hw, p84, intSourcesP84, lineRequests, placeBit]

theorem step_of_asleep (hq : s.inputs = []) (hs : s.sleeping = true) :
    step s = if wakeReq s then .next (intWake s) else .next s := by
  rw [step_of_silent hq, boundaryStep_of_asleep rfl rfl hs]
  simp only [quietBoundary, Bool.not_false, Bool.and_true]

/-- The word after SLEEP is due, so no entry comes before it. -/
theorem intEntryEnabled_intWake : intEntryEnabled (intWake s) = false := by
  simp [intEntryEnabled, intWake]

end Wake

/-- Settles O54: the sleeping boundary, and after the wake-up a quiet boundary at which the entry is held back. -/
theorem sleepEndsByAWakingRequestOnly : Obligations.SleepEndsByAWakingRequestOnly := by
  intro s
  refine ⟨wakeReq_p84_iff, fun hq hs => ⟨fun hw => ?_, fun hw => ⟨?_, fun word i hword hi => ?_⟩⟩⟩
  · rw [step_of_asleep hq hs, hw]; rfl
  · rw [step_of_asleep hq hs, hw]; rfl
  · change step (intWake s) = _
    rw [step_of_silent (s := intWake s) hq, boundaryStep_quiet rfl intEntryEnabled_intWake,
      instrStep_of_decode (s := intWake s) hword hi]
    rfl

/-! ## The Watchdog (R244) -/

theorem wdtDue_iff (s : State) :
    wdtDue s = true ↔ s.cfg.wdtEnabled = true ∧ 1 ≤ s.wdtAge ∧ s.cfg.wdtMinCycles ≤ s.wdtAge := by
  simp only [wdtDue, Bool.and_eq_true, decide_eq_true_eq, Nat.max_le]

/-- Where no time-out is due, offering one makes no difference. -/
theorem boundaryStep_timeout_not_due {s : State} (b : Boundary) (h : wdtDue s = false) :
    boundaryStep { b with wdtTimeout := true } s = boundaryStep { b with wdtTimeout := false } s := by
  simp only [boundaryStep, h, Bool.and_false]

/-- Settles O55: where the time-out is due, the boundary takes it, and elsewhere it does not look at it. -/
theorem watchdogTimeoutWakesOrResets : Obligations.WatchdogTimeoutWakesOrResets := by
  intro s b
  simp only [step_offered]
  refine ⟨fun h ht he ha hm => ?_, fun h => boundaryStep_timeout_not_due b ?_⟩
  · have hdue : (b.wdtTimeout && wdtDue s) = true := by rw [ht, (wdtDue_iff s).2 ⟨he, ha, hm⟩]; rfl
    rw [boundaryStep_of_timeout h hdue, wdtTimeout]
    exact ⟨fun hs => by rw [if_pos hs], fun hs => by rw [if_neg (by simp [hs])]⟩
  · rw [← Bool.not_eq_true, wdtDue_iff]
    rintro ⟨he, ha, hm⟩
    rcases h with h | h | h
    · rw [he] at h
      cases h
    · omega
    · omega

/-! ## Resets (R47, R260 to R262) -/

/-- Settles O56: one cause after the other. -/
theorem resetValuesByCause : Obligations.ResetValuesByCause := by
  refine ⟨fun s b h => boundaryStep_of_reset h, fun s cause hc => ?_⟩
  cases cause with
  | powerOn => exact absurd rfl hc
  | mclr => rfl
  | mclrSleep => rfl
  | wdtReset => rfl

/-- Settles O57: the fields of `powerOnReset` and of `State.reset`. -/
theorem powerOnResetValues : Obligations.PowerOnResetValues := by
  have hintcon : State.reset.intcon &&& 0xFE = 0 := by decide
  refine ⟨fun s b h => ⟨powerOnReset s, boundaryStep_of_reset h, ?_⟩, ?_⟩
  · exact ⟨rfl, rfl, rfl, hintcon, rfl, rfl, rfl, rfl, rfl, rfl, rfl, rfl, rfl, rfl, rfl, rfl, rfl⟩
  · decide

/-- Settles O59: the reset state has empty stores and an empty stack. -/
theorem resetHasTheMachineInvariant : Obligations.ResetHasTheMachineInvariant := by
  unfold Obligations.ResetHasTheMachineInvariant
  decide

end Sys2Proof.Boundaries

/-! SUPPORT. Every instruction has one of fourteen shapes, each with what the statements' tables say of its instructions:
the one case split over the 37 instructions that the frames, the stops and the invariant are read off. -/

namespace Sys2Proof.Shapes

open Machine Claims Registers

/-- The flags an update gives are among those "Status Affected" lists (R26, R48). -/
def FlagsListed (i : Instr) (y : FlagUpdate) : Prop :=
  (y.c = none ∨ StatusFlag.c ∈ statusAffected i) ∧ (y.dc = none ∨ StatusFlag.dc ∈ statusAffected i) ∧
    (y.z = none ∨ StatusFlag.z ∈ statusAffected i)

section Listed

variable {i : Instr}

theorem flagsListed_all (h : statusAffected i = [.c, .dc, .z]) (y : FlagUpdate) : FlagsListed i y := by
  simp [FlagsListed, h]

theorem flagsListed_zFlag (h : statusAffected i = [.z]) (r : Byte) : FlagsListed i (zFlag r) := by
  simp [FlagsListed, h, zFlag]

theorem flagsListed_cFlag (h : statusAffected i = [.c]) (b : Bool) : FlagsListed i (cFlag b) := by
  simp [FlagsListed, h, cFlag]

theorem flagsListed_noFlags (i : Instr) : FlagsListed i noFlags :=
  ⟨.inl rfl, .inl rfl, .inl rfl⟩

end Listed

/-- How the meaning of an instruction is put together: the shapes of the file register instructions and of the literal
instructions, with what the statements' tables say of the instruction, and the control instructions one by one. An
operation looks at W and C alone, so not at the program. -/
inductive Shape : Instr → Prop
  | dest {i : Instr} (f : FileAddr) (d : Dest) (op : State → Byte → Byte × FlagUpdate)
      (exec_eq : ∀ s, exec i s = fileToDest f d (op s) s) (op_prog : ∀ s p, op { s with prog := p } = op s)
      (flags : ∀ s v, FlagsListed i (op s v).2) (toW : d = .w → writesW i = true)
      (toFile : d = .f → ∀ s, ∃ r u a, fileWrite i s 0 = some (f, r, u, a))
      (assigns : ∀ s, WritesKind i s .pcl → AssignsPc i s) : Shape i
  | skip {i : Instr} (f : FileAddr) (d : Dest) (op : Byte → Byte)
      (exec_eq : ∀ s, exec i s = fileToDestSkip f d op s) (toW : d = .w → writesW i = true)
      (toFile : d = .f → ∀ s, ∃ r u a, fileWrite i s 0 = some (f, r, u, a))
      (assigns : ∀ s, op (fileValue f s) = 0 → AssignsPc i s) : Shape i
  | test {i : Instr} (f : FileAddr) (b : BitNum) (on : Bool) (exec_eq : ∀ s, exec i s = testSkip f b on s)
      (assigns : ∀ s, (fileValue f s).getLsbD b.toNat = on → AssignsPc i s) : Shape i
  | literal {i : Instr} (r : State → Byte) (y : State → FlagUpdate)
      (exec_eq : ∀ s, exec i s = literalToW (r s) (y s) s)
      (op_prog : ∀ s p, r { s with prog := p } = r s ∧ y { s with prog := p } = y s)
      (flags : ∀ s, FlagsListed i (y s)) (toW : writesW i = true) : Shape i
  | nop : Shape .nop
  | goto (k : BitVec 11) : Shape (.goto k)
  | call (k : BitVec 11) : Shape (.call k)
  | ret : Shape .ret
  | retlw (k : Byte) : Shape (.retlw k)
  | retfie : Shape .retfie
  | clrwdt : Shape .clrwdt
  | sleep : Shape .sleep
  | option : Shape .option
  | tris (n : BitVec 3) : Shape (.tris n)

theorem shape (i : Instr) : Shape i := by
  cases i with
  | addwf f d =>
    exact .dest f d _ (fun s => (rfl : execAddwf f d s = _)) (fun _ _ => rfl) (fun _ _ => flagsListed_all rfl _)
      (fun h => h ▸ rfl) (fun h _ => h ▸ ⟨_, _, _, rfl⟩) fun _ => id
  | andwf f d =>
    exact .dest f d _ (fun s => (rfl : execAndwf f d s = _)) (fun _ _ => rfl) (fun _ _ => flagsListed_zFlag rfl _)
      (fun h => h ▸ rfl) (fun h _ => h ▸ ⟨_, _, _, rfl⟩) fun _ => id
  | clrf f =>
    exact .dest f .f _ (fun s => (rfl : execClrf f s = _)) (fun _ _ => rfl) (fun _ _ => flagsListed_zFlag rfl _)
      nofun (fun _ _ => ⟨_, _, _, rfl⟩) fun _ => id
  | clrw =>
    exact .literal _ _ (fun s => (rfl : execClrw s = _)) (fun _ _ => ⟨rfl, rfl⟩)
      (fun _ => flagsListed_zFlag rfl _) rfl
  | comf f d =>
    exact .dest f d _ (fun s => (rfl : execComf f d s = _)) (fun _ _ => rfl) (fun _ _ => flagsListed_zFlag rfl _)
      (fun h => h ▸ rfl) (fun h _ => h ▸ ⟨_, _, _, rfl⟩) fun _ => id
  | decf f d =>
    exact .dest f d _ (fun s => (rfl : execDecf f d s = _)) (fun _ _ => rfl) (fun _ _ => flagsListed_zFlag rfl _)
      (fun h => h ▸ rfl) (fun h _ => h ▸ ⟨_, _, _, rfl⟩) fun _ => id
  | decfsz f d =>
    exact .skip f d _ (fun s => (rfl : execDecfsz f d s = _)) (fun h => h ▸ rfl) (fun h _ => h ▸ ⟨_, _, _, rfl⟩)
      fun _ => (FileResults.sub_one_eq_zero_iff _).1
  | incf f d =>
    exact .dest f d _ (fun s => (rfl : execIncf f d s = _)) (fun _ _ => rfl) (fun _ _ => flagsListed_zFlag rfl _)
      (fun h => h ▸ rfl) (fun h _ => h ▸ ⟨_, _, _, rfl⟩) fun _ => id
  | incfsz f d =>
    exact .skip f d _ (fun s => (rfl : execIncfsz f d s = _)) (fun h => h ▸ rfl) (fun h _ => h ▸ ⟨_, _, _, rfl⟩)
      fun _ => (FileResults.add_one_eq_zero_iff _).1
  | iorwf f d =>
    exact .dest f d _ (fun s => (rfl : execIorwf f d s = _)) (fun _ _ => rfl) (fun _ _ => flagsListed_zFlag rfl _)
      (fun h => h ▸ rfl) (fun h _ => h ▸ ⟨_, _, _, rfl⟩) fun _ => id
  | movf f d =>
    exact .dest f d _ (fun s => (rfl : execMovf f d s = _)) (fun _ _ => rfl) (fun _ _ => flagsListed_zFlag rfl _)
      (fun h => h ▸ rfl) (fun h _ => h ▸ ⟨_, _, _, rfl⟩) fun _ => id
  | movwf f =>
    exact .dest f .f _ (fun s => (rfl : execMovwf f s = _)) (fun _ _ => rfl) (fun _ _ => flagsListed_noFlags _)
      nofun (fun _ _ => ⟨_, _, _, rfl⟩) fun _ => id
  | nop => exact .nop
  | rlf f d =>
    exact .dest f d _ (fun s => (rfl : execRlf f d s = _)) (fun _ _ => rfl) (fun _ _ => flagsListed_cFlag rfl _)
      (fun h => h ▸ rfl) (fun h _ => h ▸ ⟨_, _, _, rfl⟩) fun _ => id
  | rrf f d =>
    exact .dest f d _ (fun s => (rfl : execRrf f d s = _)) (fun _ _ => rfl) (fun _ _ => flagsListed_cFlag rfl _)
      (fun h => h ▸ rfl) (fun h _ => h ▸ ⟨_, _, _, rfl⟩) fun _ => id
  | subwf f d =>
    exact .dest f d _ (fun s => (rfl : execSubwf f d s = _)) (fun _ _ => rfl) (fun _ _ => flagsListed_all rfl _)
      (fun h => h ▸ rfl) (fun h _ => h ▸ ⟨_, _, _, rfl⟩) fun _ => id
  | swapf f d =>
    exact .dest f d _ (fun s => (rfl : execSwapf f d s = _)) (fun _ _ => rfl) (fun _ _ => flagsListed_noFlags _)
      (fun h => h ▸ rfl) (fun h _ => h ▸ ⟨_, _, _, rfl⟩) fun _ => id
  | xorwf f d =>
    exact .dest f d _ (fun s => (rfl : execXorwf f d s = _)) (fun _ _ => rfl) (fun _ _ => flagsListed_zFlag rfl _)
      (fun h => h ▸ rfl) (fun h _ => h ▸ ⟨_, _, _, rfl⟩) fun _ => id
  | bcf f b =>
    exact .dest f .f _ (fun s => (rfl : execBcf f b s = _)) (fun _ _ => rfl) (fun _ _ => flagsListed_noFlags _)
      nofun (fun _ _ => ⟨_, _, _, rfl⟩) fun _ => id
  | bsf f b =>
    exact .dest f .f _ (fun s => (rfl : execBsf f b s = _)) (fun _ _ => rfl) (fun _ _ => flagsListed_noFlags _)
      nofun (fun _ _ => ⟨_, _, _, rfl⟩) fun _ => id
  | btfsc f b => exact .test f b false (fun _ => rfl) fun _ => id
  | btfss f b => exact .test f b true (fun _ => rfl) fun _ => id
  | addlw k =>
    exact .literal _ _ (fun s => (rfl : execAddlw k s = _)) (fun _ _ => ⟨rfl, rfl⟩)
      (fun _ => flagsListed_all rfl _) rfl
  | andlw k =>
    exact .literal _ _ (fun s => (rfl : execAndlw k s = _)) (fun _ _ => ⟨rfl, rfl⟩)
      (fun _ => flagsListed_zFlag rfl _) rfl
  | call k => exact .call k
  | clrwdt => exact .clrwdt
  | goto k => exact .goto k
  | iorlw k =>
    exact .literal _ _ (fun s => (rfl : execIorlw k s = _)) (fun _ _ => ⟨rfl, rfl⟩)
      (fun _ => flagsListed_zFlag rfl _) rfl
  | movlw k =>
    exact .literal _ _ (fun s => (rfl : execMovlw k s = _)) (fun _ _ => ⟨rfl, rfl⟩)
      (fun _ => flagsListed_noFlags _) rfl
  | retfie => exact .retfie
  | retlw k => exact .retlw k
  | ret => exact .ret
  | sleep => exact .sleep
  | sublw k =>
    exact .literal _ _ (fun s => (rfl : execSublw k s = _)) (fun _ _ => ⟨rfl, rfl⟩)
      (fun _ => flagsListed_all rfl _) rfl
  | xorlw k =>
    exact .literal _ _ (fun s => (rfl : execXorlw k s = _)) (fun _ _ => ⟨rfl, rfl⟩)
      (fun _ => flagsListed_zFlag rfl _) rfl
  | option => exact .option
  | tris n => exact .tris n

end Sys2Proof.Shapes

/-! SUPPORT and O7. From the shape of an instruction follow the ways it can stop, none of them a fetch's, and everything
it can change when it runs (R60, R61, R231). -/

namespace Sys2Proof.Effects

open Machine Claims Registers Shapes

/-! ## How an instruction can stop (R231) -/

/-- The outcome is not one of the two stops of a fetch (R61, R111). -/
def NoFetchStop (o : Result) : Prop :=
  (∀ a, o ≠ .fault (.fetchOutsideProgram a)) ∧ ∀ a u, o ≠ .refused (.unassignedOpcode a u)

section Stops

variable {s : State} {i : Instr}

theorem noFetchStop_next (t : State) : NoFetchStop (.next t) := ⟨nofun, nofun⟩

theorem noFetchStop_refusedForm (a : ProgAddr) : NoFetchStop (.refused (.refusedForm a)) := ⟨nofun, nofun⟩

theorem noFetchStop_of_accessRefusal {a : DataAddr} {r : Refusal} (h : accessRefusal s.cfg a = some r) :
    NoFetchStop (.refused r) := by
  refine ⟨nofun, fun a u he => ?_⟩
  cases he
  unfold accessRefusal at h
  split at h
  · cases h
  · cases h
  · split at h <;> cases h
  · cases h

theorem noFetchStop_withFile {f : FileAddr} {k : DataAddr → Byte → State → Result}
    (hk : ∀ a v t, NoFetchStop (k a v t)) : NoFetchStop (withFile f s k) := by
  unfold withFile
  split
  · next hr => exact noFetchStop_of_accessRefusal hr
  · exact hk _ _ _

theorem noFetchStop_fileToDest (f : FileAddr) (d : Dest) (op : Byte → Byte × FlagUpdate) :
    NoFetchStop (fileToDest f d op s) :=
  noFetchStop_withFile fun _ _ _ => noFetchStop_next _

theorem noFetchStop_fileToDestSkip (f : FileAddr) (d : Dest) (op : Byte → Byte) :
    NoFetchStop (fileToDestSkip f d op s) := by
  unfold fileToDestSkip
  split
  · exact noFetchStop_refusedForm _
  · refine noFetchStop_withFile fun _ _ _ => ?_
    split <;> exact noFetchStop_next _

theorem noFetchStop_testSkip (f : FileAddr) (b : BitNum) (on : Bool) : NoFetchStop (testSkip f b on s) := by
  refine noFetchStop_withFile fun _ _ _ => ?_
  split <;> exact noFetchStop_next _

theorem noFetchStop_call (k : BitVec 11) : NoFetchStop (exec (.call k) s) := by
  cases h : push (s.pc + 1) s with
  | ok t => rw [Control.exec_call_of_ok k h]; exact noFetchStop_next _
  | error e =>
    obtain ⟨rfl, -⟩ := push_error h
    rw [Control.exec_call_of_error k h]
    exact ⟨nofun, nofun⟩

theorem noFetchStop_returns (k : Byte) :
    NoFetchStop (exec .ret s) ∧ NoFetchStop (exec (.retlw k) s) ∧ NoFetchStop (exec .retfie s) := by
  cases h : pop s with
  | ok p =>
    obtain ⟨a, t⟩ := p
    rw [Control.exec_ret_of_ok h, Control.exec_retlw_of_ok k h, Control.exec_retfie_of_ok h]
    exact ⟨noFetchStop_next _, noFetchStop_next _, noFetchStop_next _⟩
  | error e =>
    obtain ⟨rfl, -⟩ := pop_error h
    rw [Control.exec_ret_of_error h, Control.exec_retlw_of_error k h, Control.exec_retfie_of_error h]
    exact ⟨⟨nofun, nofun⟩, ⟨nofun, nofun⟩, nofun, nofun⟩

/-- A TRIS number is that of a port the part has, or is refused (R221). -/
theorem exec_tris_cases (n : BitVec 3) (s : State) :
    exec (.tris n) s = .refused (.refusedForm s.pc) ∨
    ∃ p, exec (.tris n) s = .next (writeTris p s.w (advance s)) := by
  change execTris n s = _ ∨ ∃ p, execTris n s = _
  unfold execTris
  split
  · exact .inl rfl
  · next p _ =>
    split
    · exact .inl rfl
    · exact .inr ⟨p, rfl⟩

theorem exec_sleep_cases (s : State) :
    exec .sleep s = .next (advance s) ∨
    exec .sleep s = .next { clearWatchdog (advance s) with toBit := true, pdBit := false, sleeping := true } := by
  change execSleep s = _ ∨ execSleep s = _
  unfold execSleep
  split
  · exact .inl rfl
  · exact .inr rfl

/-- No instruction makes the stops of a fetch. -/
theorem exec_noFetchStop (i : Instr) (s : State) : NoFetchStop (exec i s) := by
  cases shape i with
  | dest f d op exec_eq => rw [exec_eq]; exact noFetchStop_fileToDest f d _
  | skip f d op exec_eq => rw [exec_eq]; exact noFetchStop_fileToDestSkip f d op
  | test f b on exec_eq => rw [exec_eq]; exact noFetchStop_testSkip f b on
  | literal r y exec_eq => rw [exec_eq]; exact noFetchStop_next _
  | nop => exact noFetchStop_next _
  | goto k => exact noFetchStop_next _
  | call k => exact noFetchStop_call k
  | ret => exact (noFetchStop_returns 0).1
  | retlw k => exact (noFetchStop_returns k).2.1
  | retfie => exact (noFetchStop_returns 0).2.2
  | clrwdt => exact noFetchStop_next _
  | sleep => rcases exec_sleep_cases s with h | h <;> (rw [h]; exact noFetchStop_next _)
  | option => exact noFetchStop_next _
  | tris n =>
    rcases exec_tris_cases n s with h | ⟨p, h⟩
    · rw [h]; exact noFetchStop_refusedForm _
    · rw [h]; exact noFetchStop_next _

theorem noFetchStop_thenAgents {o : Result} (h : NoFetchStop o) : NoFetchStop (thenAgents s o) := by
  cases o with
  | next t => exact noFetchStop_next _
  | fault e => exact h
  | refused r => exact h

end Stops

/-- Settles O7: the stops are the instruction step's own, and no instruction makes them. -/
theorem fetchStopsOutsideTheProgramAndOnUnassignedWords :
    Obligations.FetchStopsOutsideTheProgramAndOnUnassignedWords := by
  rintro s ⟨hq, hs, he⟩
  rw [Boundaries.step_of_silent hq, boundaryStep_quiet hs he]
  refine ⟨fun hn => ?_, fun w hw hd => ?_, fun w i hw hd => ?_⟩
  · rw [instrStep, hn]; rfl
  · rw [instrStep, hw]; simp only [hd]; rfl
  · rw [instrStep_of_decode hw hd]
    exact noFetchStop_thenAgents (exec_noFetchStop i _)

/-! ## What an instruction changes when it runs -/

/-- Everything an instruction that runs can have done: `t` is the state after it. -/
inductive Effect (i : Instr) (s t : State) : Prop
  | dest (f : FileAddr) (d : Dest) (r : Byte) (y : FlagUpdate) (taken : Bool) (flags : FlagsListed i y)
      (toW : d = .w → writesW i = true) (toFile : d = .f → ∃ r u a, fileWrite i s 0 = some (f, r, u, a))
      (pcl : d = .f → fileKind f s = .pcl → AssignsPc i s) (skip : taken = true → AssignsPc i s)
      (eq : t = skipIf taken (setFlags y (writeDest d (dataAddr f s) r (affectsAny y)
        (advance (readEffect (dataAddr f s) s)))))
  | read (f : FileAddr) (taken : Bool) (skip : taken = true → AssignsPc i s)
      (eq : t = skipIf taken (advance (readEffect (dataAddr f s) s)))
  | literal (r : Byte) (y : FlagUpdate) (flags : FlagsListed i y) (toW : writesW i = true)
      (eq : t = setFlags y (setW r (advance s)))
  | nop (eq : t = advance s)
  | goto (a : ProgAddr) (assigns : AssignsPc i s) (eq : t = jump a (advance s))
  | stack (a : ProgAddr) (st : List ProgAddr) (n : Nat) (w ic : Byte) (uses : usesStack i = true)
      (assigns : AssignsPc i s) (depth : st.length ≤ max s.stack.length s.cfg.stackDepth)
      (keepsW : writesW i = false → w = s.w) (keepsIntcon : i ≠ .retfie → ic = s.intcon)
      (eq : t = { jump a (advance s) with stack := st, draws := n, w := w, intcon := ic })
  | clrwdt (hi : i = .clrwdt) (eq : t = { clearWatchdog (advance s) with toBit := true, pdBit := true })
  | sleep (hi : i = .sleep)
      (eq : t = { clearWatchdog (advance s) with toBit := true, pdBit := false, sleeping := true })
  | option (eq : t = setOption s.w (advance s))
  | tris (p : PortId) (eq : t = writeTris p s.w (advance s))

section Runs

variable {i : Instr} {s t : State}

theorem readable_of_withFile {f : FileAddr} {k : DataAddr → Byte → State → Result}
    (h : withFile f s k = .next t) : Readable f s :=
  (withFile_next h).1

/-- The bit test is the skip of a read (R182, R183). -/
theorem testSkip_eq_skipIf {f : FileAddr} {b : BitNum} (on : Bool) (h : Readable f s) :
    testSkip f b on s =
      .next (skipIf (decide ((fileValue f s).getLsbD b.toNat = on)) (oneCycle (afterRead f s))) := by
  rw [testSkip, withFile_of_readable _ h]
  by_cases hb : (fileValue f s).getLsbD b.toNat = on
  · rw [decide_eq_true hb]
    exact if_pos hb
  · rw [decide_eq_false hb]
    exact if_neg hb

theorem effect_of_pop {k : Byte} (hi : i = .ret ∨ i = .retlw k ∨ i = .retfie) (h : exec i s = .next t) :
    Effect i s t := by
  cases hp : pop s with
  | error e =>
    rcases hi with rfl | rfl | rfl
    · rw [Control.exec_ret_of_error hp] at h; cases h
    · rw [Control.exec_retlw_of_error k hp] at h; cases h
    · rw [Control.exec_retfie_of_error hp] at h; cases h
  | ok p =>
    obtain ⟨a, s1⟩ := p
    obtain ⟨hs1, hlen⟩ := pop_frame hp
    have hdepth : s1.stack.length ≤ max s.stack.length s.cfg.stackDepth := le_max_of_le_left hlen
    rcases hi with rfl | rfl | rfl
    · rw [Control.exec_ret_of_ok hp] at h
      cases h
      exact .stack a s1.stack s1.draws s.w s.intcon rfl trivial hdepth (fun _ => rfl) (fun _ => rfl) (by rw [hs1]; rfl)
    · rw [Control.exec_retlw_of_ok k hp] at h
      cases h
      exact .stack a s1.stack s1.draws k s.intcon rfl trivial hdepth nofun (fun _ => rfl) (by rw [hs1]; rfl)
    · rw [Control.exec_retfie_of_ok hp] at h
      cases h
      exact .stack a s1.stack s1.draws s.w (s1.intcon ||| 0x80) rfl trivial hdepth (fun _ => rfl)
        (fun hne => absurd rfl hne) (by rw [hs1]; rfl)

/-- Every next state of an instruction is one of these effects. -/
theorem effect_of_exec (h : exec i s = .next t) : Effect i s t := by
  cases shape i with
  | dest f d op exec_eq _ flags toW toFile assigns =>
    rw [exec_eq] at h
    rw [fileToDest_of_readable _ (readable_of_withFile h)] at h
    cases h
    refine .dest f d _ _ false (flags s _) toW (fun hd => toFile hd s) (fun hd hk => assigns s ?_) nofun rfl
    obtain ⟨r, u, a, hw⟩ := toFile hd s
    exact ⟨f, r, u, a, hw, hk⟩
  | skip f d op exec_eq toW toFile assigns =>
    rw [exec_eq] at h
    obtain ⟨hp, hr, -⟩ := fileToDestSkip_next h
    have hp' : d = .w ∨ fileKind f s ≠ .pcl := by
      cases d with
      | w => exact .inl rfl
      | f => exact .inr fun hk => hp ⟨rfl, hk⟩
    rw [fileToDestSkip_of_readable op hr hp'] at h
    cases h
    exact .dest f d _ noFlags _ (flagsListed_noFlags i) toW (fun hd => toFile hd s)
      (fun hd hk => absurd ⟨hd, hk⟩ hp) (fun htaken => assigns s (of_decide_eq_true htaken)) rfl
  | test f b on exec_eq assigns =>
    rw [exec_eq] at h
    have hr := readable_of_withFile h
    rw [testSkip_eq_skipIf on hr] at h
    cases h
    exact .read f _ (fun ht => assigns s (of_decide_eq_true ht)) rfl
  | literal r y exec_eq _ flags toW =>
    rw [exec_eq] at h
    cases h
    exact .literal _ _ (flags s) toW rfl
  | nop => cases h; exact .nop rfl
  | goto k => rw [Jumps.exec_goto] at h; cases h; exact .goto _ trivial rfl
  | call k =>
    cases hp : push (s.pc + 1) s with
    | error e => rw [Control.exec_call_of_error k hp] at h; cases h
    | ok s1 =>
      rw [Control.exec_call_of_ok k hp] at h
      cases h
      obtain ⟨hs1, hlen⟩ := push_frame hp
      exact .stack (jumpTarget k s) s1.stack s.draws s.w s.intcon rfl trivial (le_max_of_le_right hlen)
        (fun _ => rfl) (fun _ => rfl) (by rw [hs1]; rfl)
  | ret => exact effect_of_pop (k := 0) (.inl rfl) h
  | retlw k => exact effect_of_pop (.inr (.inl rfl)) h
  | retfie => exact effect_of_pop (k := 0) (.inr (.inr rfl)) h
  | clrwdt => cases h; exact .clrwdt rfl rfl
  | sleep =>
    rcases exec_sleep_cases s with hx | hx
    · rw [hx] at h; cases h; exact .nop rfl
    · rw [hx] at h; cases h; exact .sleep rfl rfl
  | option => cases h; exact .option rfl
  | tris n =>
    rcases exec_tris_cases n s with hx | ⟨p, hx⟩
    · rw [hx] at h; cases h
    · rw [hx] at h; cases h; exact .tris p rfl

end Runs

end Sys2Proof.Effects

/-! SUPPORT, O43 to O48 and O58. What a write through a file operand leaves alone, by the kind of its destination; what
no instruction does, read off its effects; and the machine invariant, kept by each of them, by the agents, by the
environment and by the resets, so by every step (R26, R31, R48, R71, R81, R242, R247). -/

namespace Sys2Proof.Frames

open Machine Claims Registers Effects

/-! ## What a skip and a write to a destination leave alone -/

section SkipIf

variable (taken : Bool) (s : State)

@[simp] theorem skipIf_cfg : (skipIf taken s).cfg = s.cfg := by cases taken <;> rfl
@[simp] theorem skipIf_w : (skipIf taken s).w = s.w := by cases taken <;> rfl
@[simp] theorem skipIf_c : (skipIf taken s).c = s.c := by cases taken <;> rfl
@[simp] theorem skipIf_dc : (skipIf taken s).dc = s.dc := by cases taken <;> rfl
@[simp] theorem skipIf_z : (skipIf taken s).z = s.z := by cases taken <;> rfl
@[simp] theorem skipIf_pdBit : (skipIf taken s).pdBit = s.pdBit := by cases taken <;> rfl
@[simp] theorem skipIf_toBit : (skipIf taken s).toBit = s.toBit := by cases taken <;> rfl
@[simp] theorem skipIf_pclath : (skipIf taken s).pclath = s.pclath := by cases taken <;> rfl
@[simp] theorem skipIf_fsr : (skipIf taken s).fsr = s.fsr := by cases taken <;> rfl
@[simp] theorem skipIf_intcon : (skipIf taken s).intcon = s.intcon := by cases taken <;> rfl
@[simp] theorem skipIf_eeif : (skipIf taken s).eeif = s.eeif := by cases taken <;> rfl
@[simp] theorem skipIf_sleeping : (skipIf taken s).sleeping = s.sleeping := by cases taken <;> rfl
@[simp] theorem skipIf_afterWake : (skipIf taken s).afterWake = s.afterWake := by cases taken <;> rfl
@[simp] theorem skipIf_stack : (skipIf taken s).stack = s.stack := by cases taken <;> rfl
@[simp] theorem skipIf_gpr : (skipIf taken s).gpr = s.gpr := by cases taken <;> rfl
@[simp] theorem skipIf_prog : (skipIf taken s).prog = s.prog := by cases taken <;> rfl
@[simp] theorem skipIf_inputs : (skipIf taken s).inputs = s.inputs := by cases taken <;> rfl

end SkipIf

section WriteDest

variable (d : Dest) (a : DataAddr) (v : Byte) (b : Bool) (s : State)

@[simp] theorem writeDest_cfg : (writeDest d a v b s).cfg = s.cfg := by cases d <;> simp [writeDest]
@[simp] theorem writeDest_pdBit : (writeDest d a v b s).pdBit = s.pdBit := by cases d <;> simp [writeDest]
@[simp] theorem writeDest_toBit : (writeDest d a v b s).toBit = s.toBit := by cases d <;> simp [writeDest]
@[simp] theorem writeDest_eeif : (writeDest d a v b s).eeif = s.eeif := by cases d <;> simp [writeDest]
@[simp] theorem writeDest_sleeping : (writeDest d a v b s).sleeping = s.sleeping := by cases d <;> simp [writeDest]
@[simp] theorem writeDest_afterWake : (writeDest d a v b s).afterWake = s.afterWake := by
  cases d <;> simp [writeDest]
@[simp] theorem writeDest_stack : (writeDest d a v b s).stack = s.stack := by cases d <;> simp [writeDest]
@[simp] theorem writeDest_prog : (writeDest d a v b s).prog = s.prog := by cases d <;> simp [writeDest]
@[simp] theorem writeDest_inputs : (writeDest d a v b s).inputs = s.inputs := by cases d <;> simp [writeDest]

end WriteDest

/-! ## A register changes by a write to its own kind alone (R67) -/

section Kinds

variable {d : Dest} {a : DataAddr} (v : Byte) (b : Bool) {s : State}

theorem memWrite_pc (h : regKind s.cfg a ≠ .pcl) : (memWrite a v b s).pc = s.pc := by
  unfold memWrite
  split <;> first | rfl | exact absurd ‹_› h

theorem memWrite_pclath_kept (h : regKind s.cfg a ≠ .pclath) : (memWrite a v b s).pclath = s.pclath := by
  unfold memWrite
  split <;> first | rfl | exact absurd ‹_› h

theorem memWrite_intcon_kept (h : regKind s.cfg a ≠ .intcon) : (memWrite a v b s).intcon = s.intcon := by
  unfold memWrite
  split <;> first | rfl | exact absurd ‹_› h

theorem memWrite_fsr_kept (h : regKind s.cfg a ≠ .fsr) : (memWrite a v b s).fsr = s.fsr := by
  unfold memWrite
  split <;> first | rfl | exact absurd ‹_› h

theorem gprRead_memWrite {n : Nat} (h : regKind s.cfg a ≠ .gpr n) :
    gprRead (memWrite a v b s).gpr n = gprRead s.gpr n := by
  unfold memWrite
  split
  case h_1 m hk => exact gprRead_gprWrite_ne _ _ fun hm => h (hm ▸ hk)
  all_goals rfl

end Kinds

/-- A write to a destination that is not a file register of kind `k` leaves alone what only a write to that kind
changes. -/
theorem writeDest_kept {α : Type} {k : RegKind} {g : State → α} {d : Dest} {a : DataAddr} {v : Byte} {b : Bool}
    {s : State} (hw : g (setW v s) = g s) (hk : regKind s.cfg a ≠ k → g (memWrite a v b s) = g s)
    (h : d = .f → regKind s.cfg a ≠ k) : g (writeDest d a v b s) = g s := by
  cases d with
  | w => exact hw
  | f => exact hk (h rfl)

section Destination

variable {i : Instr} {s : State} {f : FileAddr} {d : Dest} {k : RegKind}

/-- The register behind the file destination of an instruction that does not write kind `k` is not of kind `k`. -/
theorem kind_ne_of_not_writesKind (toFile : d = .f → ∃ r u a, fileWrite i s 0 = some (f, r, u, a))
    (h : ¬ WritesKind i s k) (hd : d = .f) :
    regKind (advance (readEffect (dataAddr f s) s)).cfg (dataAddr f s) ≠ k := by
  rw [advance_cfg, readEffect_cfg]
  intro hk
  obtain ⟨r, u, a, hw⟩ := toFile hd
  exact h ⟨f, r, u, a, hw, hk⟩

end Destination

/-! ## What no instruction does -/

/-- Settles O43: an update gives listed flags alone, and only a write to STATUS changes C, DC and Z besides. -/
theorem flagsNotListedKeepTheirValue : Obligations.FlagsNotListedKeepTheirValue := by
  intro i s t g h hg hs
  cases effect_of_exec h with
  | dest f d r y taken flags toW toFile pcl skip eq =>
    obtain ⟨hc, hdc, hz⟩ := flags
    have hk := kind_ne_of_not_writesKind toFile hs
    subst eq
    match g, hg with
    | .c, hg =>
      have hx := writeDest_kept (g := State.c) (v := r) (b := affectsAny y) rfl
        (fun hne => (memWrite_flags _ _ hne).1) hk
      simpa [flagValue, hc.resolve_right hg] using hx
    | .dc, hg =>
      have hx := writeDest_kept (g := State.dc) (v := r) (b := affectsAny y) rfl
        (fun hne => (memWrite_flags _ _ hne).2.1) hk
      simpa [flagValue, hdc.resolve_right hg] using hx
    | .z, hg =>
      have hx := writeDest_kept (g := State.z) (v := r) (b := affectsAny y) rfl
        (fun hne => (memWrite_flags _ _ hne).2.2) hk
      simpa [flagValue, hz.resolve_right hg] using hx
    | .to, _ => simp [flagValue]
    | .pd, _ => simp [flagValue]
  | read f taken skip eq => subst eq; cases g <;> simp [flagValue]
  | literal r y flags toW eq =>
    obtain ⟨hc, hdc, hz⟩ := flags
    subst eq
    match g, hg with
    | .c, hg => simp [flagValue, hc.resolve_right hg]
    | .dc, hg => simp [flagValue, hdc.resolve_right hg]
    | .z, hg => simp [flagValue, hz.resolve_right hg]
    | .to, _ => rfl
    | .pd, _ => rfl
  | nop eq => subst eq; cases g <;> rfl
  | goto a assigns eq => subst eq; cases g <;> rfl
  | stack a st n w ic uses assigns depth keepsW keepsIntcon eq => subst eq; cases g <;> rfl
  | clrwdt hi eq => subst hi eq; cases g <;> first | rfl | simp [statusAffected] at hg
  | sleep hi eq => subst hi eq; cases g <;> first | rfl | simp [statusAffected] at hg
  | option eq => subst eq; cases g <;> rfl
  | tris p eq => subst eq; cases g <;> rfl

/-- Settles O44: CLRWDT and SLEEP have the two effects that name TO and PD. -/
theorem onlyClrwdtAndSleepWriteToAndPd : Obligations.OnlyClrwdtAndSleepWriteToAndPd := by
  intro i s t h hc hs
  cases effect_of_exec h with
  | dest f d r y taken flags toW toFile pcl skip eq => subst eq; simp
  | read f taken skip eq => subst eq; simp
  | literal r y flags toW eq => subst eq; exact ⟨rfl, rfl⟩
  | nop eq => subst eq; exact ⟨rfl, rfl⟩
  | goto a assigns eq => subst eq; exact ⟨rfl, rfl⟩
  | stack a st n w ic uses assigns depth keepsW keepsIntcon eq => subst eq; exact ⟨rfl, rfl⟩
  | clrwdt hi eq => exact absurd hi hc
  | sleep hi eq => exact absurd hi hs
  | option eq => subst eq; exact ⟨rfl, rfl⟩
  | tris p eq => subst eq; exact ⟨rfl, rfl⟩

theorem add_one_toNat (a : ProgAddr) : (a + 1).toNat = (a.toNat + 1) % 2 ^ 13 :=
  BitVec.toNat_add a 1

/-- Settles O45: where PC is not assigned, the advance has decided it. -/
theorem defaultSuccessorIsTheNextAddress : Obligations.DefaultSuccessorIsTheNextAddress := by
  intro i s t h hpc
  suffices ht : t.pc = s.pc + 1 by rw [ht, add_one_toNat]
  cases effect_of_exec h with
  | dest f d r y taken flags toW toFile pcl skip eq =>
    obtain rfl : taken = false := by
      cases taken with
      | false => rfl
      | true => exact absurd (skip rfl) hpc
    have hk : d = .f → regKind (advance (readEffect (dataAddr f s) s)).cfg (dataAddr f s) ≠ .pcl := by
      rw [advance_cfg, readEffect_cfg]
      exact fun hd hk => hpc (pcl hd hk)
    have hx := writeDest_kept (g := State.pc) (v := r) (b := affectsAny y) rfl (memWrite_pc _ _) hk
    subst eq
    simpa [skipIf] using hx
  | read f taken skip eq =>
    obtain rfl : taken = false := by
      cases taken with
      | false => rfl
      | true => exact absurd (skip rfl) hpc
    subst eq
    simp [skipIf]
  | literal r y flags toW eq => subst eq; rfl
  | nop eq => subst eq; rfl
  | goto a assigns eq => exact absurd assigns hpc
  | stack a st n w ic uses assigns depth keepsW keepsIntcon eq => exact absurd assigns hpc
  | clrwdt hi eq => subst eq; rfl
  | sleep hi eq => subst eq; rfl
  | option eq => subst eq; rfl
  | tris p eq => subst eq; rfl

/-- Settles O46: each register by the one effect that names it. -/
theorem coreRegistersChangeOnlyByTheirInstructions : Obligations.CoreRegistersChangeOnlyByTheirInstructions := by
  intro i s t h
  cases effect_of_exec h with
  | dest f d r y taken flags toW toFile pcl skip eq =>
    have kind (k : RegKind) (hk : ¬ WritesKind i s k) := kind_ne_of_not_writesKind toFile hk
    subst eq
    refine ⟨fun hw => ?_, fun _ => by simp, fun _ => by simp, fun hk => ?_, fun _ hk => ?_, fun hk => ?_⟩
    · cases d with
      | w => rw [toW rfl] at hw; cases hw
      | f => simp [writeDest]
    · simpa using writeDest_kept (g := State.pclath) (v := r) (b := affectsAny y) rfl
        (memWrite_pclath_kept _ _) (kind .pclath hk)
    · simpa using writeDest_kept (g := State.intcon) (v := r) (b := affectsAny y) rfl
        (memWrite_intcon_kept _ _) (kind .intcon hk)
    · simpa using writeDest_kept (g := State.fsr) (v := r) (b := affectsAny y) rfl
        (memWrite_fsr_kept _ _) (kind .fsr hk)
  | read f taken skip eq => subst eq; simp
  | literal r y flags toW eq => subst eq; simp [toW]
  | nop eq => subst eq; simp
  | goto a assigns eq => subst eq; simp
  | stack a st n w ic uses assigns depth keepsW keepsIntcon eq =>
    subst eq
    refine ⟨keepsW, fun hu => ?_, fun _ => rfl, fun _ => rfl, fun hi _ => keepsIntcon hi, fun _ => rfl⟩
    rw [uses] at hu
    cases hu
  | clrwdt hi eq => subst eq; simp
  | sleep hi eq => subst eq; simp [hi]
  | option eq => subst eq; simp
  | tris p eq => subst eq; simp [writeTris]

/-- Settles O47: a general purpose register changes by a write to its own kind and number alone. -/
theorem onlyTheAddressedRegisterChanges : Obligations.OnlyTheAddressedRegisterChanges := by
  intro i s t n h hn
  cases effect_of_exec h with
  | dest f d r y taken flags toW toFile pcl skip eq =>
    subst eq
    simpa using writeDest_kept (g := fun u => gprRead u.gpr n) (v := r) (b := affectsAny y) rfl
      (gprRead_memWrite _ _) (kind_ne_of_not_writesKind toFile hn)
  | read f taken skip eq => subst eq; simp
  | literal r y flags toW eq => subst eq; rfl
  | nop eq => subst eq; rfl
  | goto a assigns eq => subst eq; rfl
  | stack a st n w ic uses assigns depth keepsW keepsIntcon eq => subst eq; rfl
  | clrwdt hi eq => subst eq; rfl
  | sleep hi eq => subst eq; rfl
  | option eq => subst eq; rfl
  | tris p eq => subst eq; rfl

/-- No instruction changes the program, the configuration, EEIF, the held-back entry or the environment's choices. -/
theorem exec_keeps_program {i : Instr} {s t : State} (h : exec i s = .next t) :
    t.prog = s.prog ∧ t.cfg = s.cfg ∧ t.eeif = s.eeif ∧ t.afterWake = s.afterWake ∧ t.inputs = s.inputs := by
  cases effect_of_exec h with
  | dest f d r y taken flags toW toFile pcl skip eq => subst eq; simp
  | read f taken skip eq => subst eq; simp
  | literal r y flags toW eq => subst eq; simp
  | nop eq => subst eq; simp
  | goto a assigns eq => subst eq; simp
  | stack a st n w ic uses assigns depth keepsW keepsIntcon eq => subst eq; simp
  | clrwdt hi eq => subst eq; simp
  | sleep hi eq => subst eq; simp
  | option eq => subst eq; simp
  | tris p eq => subst eq; simp [writeTris]

theorem agentsAct_keeps_program (before s : State) :
    (agentsAct before s).prog = s.prog ∧ (agentsAct before s).cfg = s.cfg := by
  rw [(agentsAct_agentFrame before s).frame]
  exact ⟨rfl, rfl⟩

theorem takeInterrupt_keeps_program {s t : State} (h : takeInterrupt s = .next t) :
    t.prog = s.prog ∧ t.cfg = s.cfg := by
  obtain ⟨s1, hpush, rfl⟩ := takeInterrupt_next h
  rw [(push_frame hpush).1]
  exact ⟨rfl, rfl⟩

theorem wdtTimeout_keeps_program (s : State) :
    (wdtTimeout s).prog = s.prog ∧ (wdtTimeout s).cfg = s.cfg := by
  unfold wdtTimeout
  split <;> exact ⟨rfl, rfl⟩

theorem boundaryStep_keeps_program {b : Boundary} {s t : State} (h : boundaryStep b s = .next t) :
    t.prog = s.prog ∧ t.cfg = s.cfg := by
  rcases boundaryStep_next h with
    ⟨line, -, rfl⟩ | ⟨-, rfl⟩ | ⟨-, -, rfl⟩ | ⟨-, rfl⟩ | ⟨-, -, u, hu, rfl⟩ | ⟨-, u, hu, rfl⟩
  · obtain ⟨hcfg, hprog, -⟩ := applyReset_frame (resetCauseOf line s) s
    exact ⟨hprog, hcfg⟩
  · exact wdtTimeout_keeps_program s
  · exact ⟨rfl, rfl⟩
  · exact ⟨rfl, rfl⟩
  · obtain ⟨hprog, hcfg⟩ := agentsAct_keeps_program s u
    obtain ⟨hprog', hcfg'⟩ := takeInterrupt_keeps_program hu
    exact ⟨hprog.trans hprog', hcfg.trans hcfg'⟩
  · obtain ⟨_, i, -, -, hi⟩ := instrStep_next hu
    obtain ⟨hprog, hcfg⟩ := agentsAct_keeps_program s u
    obtain ⟨hprog', hcfg', -⟩ := exec_keeps_program hi
    exact ⟨hprog.trans hprog', hcfg.trans hcfg'⟩

/-- Settles O48: no effect names the program, and neither do the environment, the agents and the resets. -/
theorem nothingWritesTheProgramOrTheConfiguration : Obligations.NothingWritesTheProgramOrTheConfiguration := by
  refine ⟨fun i s t => exec_keeps_program, fun s t h => ?_⟩
  rcases step_next h with ⟨e, rest, -, rfl⟩ | ⟨b, rest, -, hb⟩ | ⟨-, hb⟩
  · rw [applyEnv_frame]
    exact ⟨rfl, rfl⟩
  · exact boundaryStep_keeps_program (s := { s with inputs := rest }) hb
  · exact boundaryStep_keeps_program hb

/-! ## The invariant -/

/-- What of the invariant the instructions see: the stores, the stack and the ports. -/
structure CoreSound (s : State) : Prop where
  gpr : Memory.wf s.gpr = true
  prog : Program.wf s.prog = true
  stack : s.stack.length ≤ s.cfg.stackDepth
  ports : ∀ p, PortSound s.cfg p (getPort p s)

theorem machineInv_iff (s : State) :
    MachineInv s ↔ CoreSound s ∧ (s.afterWake = true → s.sleeping = false) ∧ s.timer0Due = 0 := by
  constructor
  · rintro ⟨hg, hp, hst, ha, hb, hc, hw, hd⟩
    refine ⟨⟨hg, hp, hst, fun p => ?_⟩, hw, hd⟩
    cases p with
    | a => exact ha
    | b => exact hb
    | c => exact hc
  · rintro ⟨⟨hg, hp, hst, hports⟩, hw, hd⟩
    exact ⟨hg, hp, hst, hports .a, hports .b, hports .c, hw, hd⟩

section Ports

variable {s t : State}

theorem getPort_setPort (p q : PortId) (x : Port) (s : State) :
    getPort q (setPort p x s) = if q = p then x else getPort q s := by
  cases p <;> cases q <;> rfl

/-- A value restricted to the implemented bits has no other. -/
theorem and_mask_sound (v m : Byte) : (v &&& m) &&& ~~~m = 0 := by
  rw [BitVec.and_assoc, BitVec.and_not_self]
  exact BitVec.and_zero

theorem ports_writeLatch (p : PortId) (v : Byte) (h : ∀ q, PortSound s.cfg q (getPort q s)) (q : PortId) :
    PortSound s.cfg q (getPort q (writeLatch p v s)) := by
  rw [writeLatch, getPort_setPort]
  split
  · next hq => subst hq; exact ⟨and_mask_sound _ _, (h q).2⟩
  · exact h q

theorem ports_writeTris (p : PortId) (v : Byte) (h : ∀ q, PortSound s.cfg q (getPort q s)) (q : PortId) :
    PortSound s.cfg q (getPort q (writeTris p v s)) := by
  rw [writeTris, getPort_setPort]
  split
  · next hq => subst hq; exact ⟨(h q).1, and_mask_sound _ _⟩
  · exact h q

theorem ports_memWrite (a : DataAddr) (v : Byte) (b : Bool) (h : ∀ q, PortSound s.cfg q (getPort q s))
    (q : PortId) : PortSound s.cfg q (getPort q (memWrite a v b s)) := by
  unfold memWrite
  split
  case h_10 p _ => exact ports_writeLatch p v h q
  case h_11 p _ => exact ports_writeTris p v h q
  all_goals exact h q

theorem coreSound_read (a : DataAddr) (h : CoreSound s) : CoreSound (advance (readEffect a s)) := by
  refine ⟨by simpa using h.gpr, by simpa using h.prog, by simpa using h.stack, fun p => ?_⟩
  change PortSound (readEffect a s).cfg p (getPort p (readEffect a s))
  rw [PortSound, readEffect_cfg, readEffect_latch, readEffect_tris]
  exact h.ports p

theorem coreSound_memWrite (a : DataAddr) (v : Byte) (b : Bool) (h : CoreSound s) : CoreSound (memWrite a v b s) := by
  refine ⟨memWrite_gpr_wf a v b s h.gpr, by simpa using h.prog, by simpa using h.stack, fun p => ?_⟩
  rw [memWrite_cfg]
  exact ports_memWrite a v b h.ports p

theorem coreSound_writeDest (d : Dest) (a : DataAddr) (v : Byte) (b : Bool) (h : CoreSound s) :
    CoreSound (writeDest d a v b s) := by
  cases d with
  | w => exact ⟨h.gpr, h.prog, h.stack, h.ports⟩
  | f => exact coreSound_memWrite a v b h

theorem coreSound_skipIf (taken : Bool) (h : CoreSound s) : CoreSound (skipIf taken s) := by
  cases taken with
  | false => exact h
  | true => exact ⟨h.gpr, h.prog, h.stack, h.ports⟩

/-- Every instruction keeps the stores, the stack and the ports sound. -/
theorem coreSound_exec {i : Instr} (hs : CoreSound s) (h : exec i s = .next t) : CoreSound t := by
  have ⟨hg, hp, hst, hports⟩ := hs
  cases effect_of_exec h with
  | dest f d r y taken flags toW toFile pcl skip eq =>
    obtain ⟨hg', hp', hst', hports'⟩ :=
      coreSound_writeDest d (dataAddr f s) r (affectsAny y) (coreSound_read (dataAddr f s) hs)
    subst eq
    exact coreSound_skipIf taken ⟨hg', hp', hst', hports'⟩
  | read f taken skip eq => subst eq; exact coreSound_skipIf taken (coreSound_read (dataAddr f s) hs)
  | literal r y flags toW eq => subst eq; exact ⟨hg, hp, hst, hports⟩
  | nop eq => subst eq; exact ⟨hg, hp, hst, hports⟩
  | goto a assigns eq => subst eq; exact ⟨hg, hp, hst, hports⟩
  | stack a st n w ic uses assigns depth keepsW keepsIntcon eq =>
    subst eq
    exact ⟨hg, hp, depth.trans (max_le hst le_rfl), hports⟩
  | clrwdt hi eq => subst eq; exact ⟨hg, hp, hst, hports⟩
  | sleep hi eq => subst eq; exact ⟨hg, hp, hst, hports⟩
  | option eq => subst eq; exact ⟨hg, hp, hst, hports⟩
  | tris p eq => subst eq; exact ⟨hg, hp, hst, ports_writeTris p s.w hports⟩

theorem coreSound_takeInterrupt (hs : CoreSound s) (h : takeInterrupt s = .next t) : CoreSound t := by
  obtain ⟨s1, hpush, rfl⟩ := takeInterrupt_next h
  obtain ⟨hframe, hlen⟩ := push_frame hpush
  rw [hframe]
  exact ⟨hs.gpr, hs.prog, hlen, hs.ports⟩

theorem coreSound_of_agentFrame (hs : CoreSound s) (h : AgentFrame s t) : CoreSound t := by
  rw [h.frame]
  exact ⟨hs.gpr, hs.prog, hs.stack, hs.ports⟩

/-- An environment step changes the pins of a port alone. -/
theorem coreSound_applyEnv (e : EnvEvent) (hs : CoreSound s) : CoreSound (applyEnv e s) := by
  rw [applyEnv_frame]
  refine ⟨hs.gpr, hs.prog, hs.stack, fun p => ?_⟩
  cases p with
  | a => exact hs.ports .a
  | b => exact hs.ports .b
  | c => exact hs.ports .c

theorem mask_sound (m : Byte) : m &&& ~~~m = 0 := BitVec.and_not_self m

/-- A reset empties the stack and sets each TRIS register to its implemented bits. -/
theorem coreSound_resetCommon (hs : CoreSound s) : CoreSound (resetCommon s) := by
  refine ⟨hs.gpr, hs.prog, Nat.zero_le _, fun p => ?_⟩
  cases p with
  | a => exact ⟨(hs.ports .a).1, mask_sound _⟩
  | b => exact ⟨(hs.ports .b).1, mask_sound _⟩
  | c => exact ⟨(hs.ports .c).1, mask_sound _⟩

theorem coreSound_powerOnReset (hs : CoreSound s) : CoreSound (powerOnReset s) := by
  refine ⟨rfl, hs.prog, Nat.zero_le _, fun p => ?_⟩
  cases p with
  | a => exact ⟨BitVec.zero_and, mask_sound _⟩
  | b => exact ⟨BitVec.zero_and, mask_sound _⟩
  | c => exact ⟨BitVec.zero_and, mask_sound _⟩

/-- A reset holds no entry back and leaves nothing due for Timer0. -/
theorem machineInv_applyReset (cause : ResetCause) (hs : CoreSound s) : MachineInv (applyReset cause s) := by
  rw [machineInv_iff]
  have hcommon := coreSound_resetCommon hs
  cases cause with
  | powerOn => exact ⟨coreSound_powerOnReset hs, nofun, rfl⟩
  | mclr => exact ⟨hcommon, nofun, rfl⟩
  | mclrSleep => exact ⟨⟨hcommon.gpr, hcommon.prog, hcommon.stack, hcommon.ports⟩, nofun, rfl⟩
  | wdtReset => exact ⟨⟨hcommon.gpr, hcommon.prog, hcommon.stack, hcommon.ports⟩, nofun, rfl⟩

theorem machineInv_wdtTimeout (hs : MachineInv s) : MachineInv (wdtTimeout s) := by
  obtain ⟨hcore, -, hdue⟩ := (machineInv_iff s).1 hs
  unfold wdtTimeout
  split
  · exact (machineInv_iff _).2 ⟨⟨hcore.gpr, hcore.prog, hcore.stack, hcore.ports⟩, fun _ => rfl, hdue⟩
  · exact machineInv_applyReset .wdtReset hcore

theorem machineInv_intWake (hs : MachineInv s) : MachineInv (intWake s) := by
  obtain ⟨hcore, -, hdue⟩ := (machineInv_iff s).1 hs
  exact (machineInv_iff _).2 ⟨⟨hcore.gpr, hcore.prog, hcore.stack, hcore.ports⟩, fun _ => rfl, hdue⟩

/-- After an entry or an instruction the agents leave nothing due, and what holds an entry back is as it was. -/
theorem machineInv_agentsAct (before : State) (hs : CoreSound s) (hw : s.afterWake = true → s.sleeping = false) :
    MachineInv (agentsAct before s) := by
  have hframe := agentsAct_agentFrame before s
  refine (machineInv_iff _).2 ⟨coreSound_of_agentFrame hs hframe, ?_, agentsAct_timer0Due before s⟩
  rw [hframe.frame]
  exact hw

theorem machineInv_boundaryStep {b : Boundary} (hs : MachineInv s) (h : boundaryStep b s = .next t) :
    MachineInv t := by
  obtain ⟨hcore, hwake, hdue⟩ := (machineInv_iff s).1 hs
  rcases boundaryStep_next h with
    ⟨line, -, rfl⟩ | ⟨-, rfl⟩ | ⟨-, -, rfl⟩ | ⟨-, rfl⟩ | ⟨-, -, u, hu, rfl⟩ | ⟨-, u, hu, rfl⟩
  · exact machineInv_applyReset _ hcore
  · exact machineInv_wdtTimeout hs
  · exact machineInv_intWake hs
  · exact hs
  · refine machineInv_agentsAct s (coreSound_takeInterrupt hcore hu) ?_
    obtain ⟨s1, hpush, rfl⟩ := takeInterrupt_next hu
    rw [(push_frame hpush).1]
    exact hwake
  · obtain ⟨_, i, -, -, hi⟩ := instrStep_next hu
    have hcore' : CoreSound { s with afterWake := false } := ⟨hcore.gpr, hcore.prog, hcore.stack, hcore.ports⟩
    refine machineInv_agentsAct s (coreSound_exec hcore' hi) fun hw => ?_
    obtain ⟨-, -, -, hkept, -⟩ := exec_keeps_program hi
    rw [hkept] at hw
    cases hw

end Ports

/-- Settles O58: a step is an environment step or a boundary, and each keeps the invariant. -/
theorem stepKeepsTheMachineInvariant : Obligations.StepKeepsTheMachineInvariant := by
  intro s t hs h
  rcases step_next h with ⟨e, rest, -, rfl⟩ | ⟨b, rest, -, hb⟩ | ⟨-, hb⟩
  · obtain ⟨⟨hg, hp, hst, hports⟩, hwake, hdue⟩ := (machineInv_iff s).1 hs
    refine (machineInv_iff _).2 ⟨coreSound_applyEnv e ⟨hg, hp, hst, hports⟩, ?_⟩
    rw [applyEnv_frame]
    exact ⟨hwake, hdue⟩
  · exact machineInv_boundaryStep (s := { s with inputs := rest }) hs hb
  · exact machineInv_boundaryStep hs hb

end Sys2Proof.Frames

/-! SUPPORT and O8. Every operation of the machine but the fetch commutes with replacing the program: the registers, the
stack, the agents, the environment and the resets one after the other, then the shapes of the instructions, and last the
boundary, whose fetch reads the word at PC alone (R45, R81, R184). -/

namespace Sys2Proof.ProgramReads

open Machine Claims Registers Shapes Effects

/-- The state with another program. -/
def withProg (p : Program) (s : State) : State := { s with prog := p }

section Commutes

variable (p : Program) (s : State)

/-! ## Registers and the stack -/

theorem readEffect_withProg (a : DataAddr) : readEffect a (withProg p s) = withProg p (readEffect a s) := by
  by_cases h : ∃ q, regKind s.cfg a = .port q
  · obtain ⟨q, hq⟩ := h
    rw [readEffect_port hq, readEffect_port (s := withProg p s) hq]
    rfl
  · have hnot : ∀ q, regKind s.cfg a ≠ .port q := fun q hq => h ⟨q, hq⟩
    rw [readEffect_of_not_port a s hnot, readEffect_of_not_port a (withProg p s) hnot]

theorem memWrite_withProg (a : DataAddr) (v : Byte) (b : Bool) :
    memWrite a v b (withProg p s) = withProg p (memWrite a v b s) := by
  cases hk : regKind s.cfg a <;> simp only [memWrite, withProg, hk] <;> rfl

theorem writeDest_withProg (d : Dest) (a : DataAddr) (v : Byte) (b : Bool) :
    writeDest d a v b (withProg p s) = withProg p (writeDest d a v b s) := by
  cases d with
  | w => rfl
  | f => exact memWrite_withProg p s a v b

theorem push_withProg (v : ProgAddr) : push v (withProg p s) = (push v s).map (withProg p) := by
  by_cases h : s.stack.length < s.cfg.stackDepth
  · rw [Control.push_of_room v h, Control.push_of_room (s := withProg p s) v h]
    rfl
  · have hge : s.cfg.stackDepth ≤ s.stack.length := Nat.le_of_not_lt h
    cases hm : s.cfg.stackMode with
    | fault =>
      rw [Control.push_of_full_fault v hge hm, Control.push_of_full_fault (s := withProg p s) v hge hm]
      rfl
    | circular =>
      rw [Control.push_of_full_circular v hge hm, Control.push_of_full_circular (s := withProg p s) v hge hm]
      rfl

theorem pop_withProg : pop (withProg p s) = (pop s).map (Prod.map id (withProg p)) := by
  cases h : s.stack with
  | cons v rest =>
    rw [Control.pop_of_cons v h, Control.pop_of_cons (s := withProg p s) v h]
    rfl
  | nil =>
    cases hm : s.cfg.stackMode with
    | fault =>
      rw [Control.pop_of_empty_fault h hm, Control.pop_of_empty_fault (s := withProg p s) h hm]
      rfl
    | circular =>
      rw [Control.pop_of_empty_circular h hm, Control.pop_of_empty_circular (s := withProg p s) h hm]
      rfl

/-! ## The shapes of the instructions -/

/-- An operand is read and refused as before; what goes on commutes if its continuation does. -/
theorem withFile_withProg {f : FileAddr} {k k' : DataAddr → Byte → State → Result}
    (hk : ∀ a v t, k' a v (withProg p t) = withProgram p (k a v t)) :
    withFile f (withProg p s) k' = withProgram p (withFile f s k) := by
  have hv : memRead (dataAddr f s) (withProg p s) = memRead (dataAddr f s) s := rfl
  cases h : accessRefusal s.cfg (dataAddr f s) with
  | some r => rw [withFile_of_refused k h, withFile_of_refused (s := withProg p s) k' h]; rfl
  | none =>
    rw [withFile_of_readable k h, withFile_of_readable (s := withProg p s) k' h,
      show dataAddr f (withProg p s) = dataAddr f s from rfl, hv, readEffect_withProg, hk]

theorem fileToDest_withProg (f : FileAddr) (d : Dest) (op : Byte → Byte × FlagUpdate) :
    fileToDest f d op (withProg p s) = withProgram p (fileToDest f d op s) := by
  refine withFile_withProg p s fun a v t => ?_
  rw [show advance (withProg p t) = withProg p (advance t) from rfl, writeDest_withProg]
  rfl

theorem fileToDestSkip_withProg (f : FileAddr) (d : Dest) (op : Byte → Byte) :
    fileToDestSkip f d op (withProg p s) = withProgram p (fileToDestSkip f d op s) := by
  have hpcl : (decide (d = .f) && decide (regKind (withProg p s).cfg (dataAddr f (withProg p s)) = .pcl)) =
      (decide (d = .f) && decide (regKind s.cfg (dataAddr f s) = .pcl)) := rfl
  rw [fileToDestSkip, fileToDestSkip, hpcl]
  split
  · rfl
  · refine withFile_withProg p s fun a v t => ?_
    rw [show advance (withProg p t) = withProg p (advance t) from rfl, writeDest_withProg]
    split <;> rfl

theorem testSkip_withProg (f : FileAddr) (b : BitNum) (on : Bool) :
    testSkip f b on (withProg p s) = withProgram p (testSkip f b on s) := by
  refine withFile_withProg p s fun a v t => ?_
  split <;> rfl

theorem call_withProg (k : BitVec 11) : exec (.call k) (withProg p s) = withProgram p (exec (.call k) s) := by
  have hpush := push_withProg p s (s.pc + 1)
  cases h : push (s.pc + 1) s with
  | ok t =>
    rw [h] at hpush
    rw [Control.exec_call_of_ok k h, Control.exec_call_of_ok (s := withProg p s) k hpush]
    rfl
  | error e =>
    rw [h] at hpush
    rw [Control.exec_call_of_error k h, Control.exec_call_of_error (s := withProg p s) k hpush]
    rfl

theorem returns_withProg (k : Byte) :
    exec .ret (withProg p s) = withProgram p (exec .ret s) ∧
    exec (.retlw k) (withProg p s) = withProgram p (exec (.retlw k) s) ∧
    exec .retfie (withProg p s) = withProgram p (exec .retfie s) := by
  have hpop := pop_withProg p s
  cases h : pop s with
  | ok x =>
    obtain ⟨a, t⟩ := x
    rw [h] at hpop
    rw [Control.exec_ret_of_ok h, Control.exec_ret_of_ok hpop, Control.exec_retlw_of_ok k h,
      Control.exec_retlw_of_ok k hpop, Control.exec_retfie_of_ok h, Control.exec_retfie_of_ok hpop]
    exact ⟨rfl, rfl, rfl⟩
  | error e =>
    rw [h] at hpop
    rw [Control.exec_ret_of_error h, Control.exec_ret_of_error hpop, Control.exec_retlw_of_error k h,
      Control.exec_retlw_of_error k hpop, Control.exec_retfie_of_error h, Control.exec_retfie_of_error hpop]
    exact ⟨rfl, rfl, rfl⟩

theorem sleep_withProg : exec .sleep (withProg p s) = withProgram p (exec .sleep s) := by
  have hnop : ((withProg p s).cfg.sleepNopIfPending && intReq (withProg p s)) =
      (s.cfg.sleepNopIfPending && intReq s) := rfl
  change execSleep (withProg p s) = withProgram p (execSleep s)
  rw [execSleep, execSleep, hnop]
  split <;> rfl

theorem tris_withProg (n : BitVec 3) : exec (.tris n) (withProg p s) = withProgram p (exec (.tris n) s) := by
  change execTris n (withProg p s) = withProgram p (execTris n s)
  cases hn : trisPort n with
  | none => simp only [execTris, hn]; rfl
  | some q =>
    cases hq : portBits s.cfg q <;> simp only [execTris, hn, withProg, hq] <;> rfl

/-- No instruction looks at the program. -/
theorem exec_withProg (i : Instr) : exec i (withProg p s) = withProgram p (exec i s) := by
  cases shape i with
  | dest f d op exec_eq op_prog =>
    rw [exec_eq, exec_eq, show op (withProg p s) = op s from op_prog s p]
    exact fileToDest_withProg p s f d (op s)
  | skip f d op exec_eq => rw [exec_eq, exec_eq]; exact fileToDestSkip_withProg p s f d op
  | test f b on exec_eq => rw [exec_eq, exec_eq]; exact testSkip_withProg p s f b on
  | literal r y exec_eq op_prog =>
    obtain ⟨hr, hy⟩ := op_prog s p
    rw [exec_eq, exec_eq, show r (withProg p s) = r s from hr, show y (withProg p s) = y s from hy]
    rfl
  | nop => rfl
  | goto k => rfl
  | call k => exact call_withProg p s k
  | ret => exact (returns_withProg p s 0).1
  | retlw k => exact (returns_withProg p s k).2.1
  | retfie => exact (returns_withProg p s 0).2.2
  | clrwdt => rfl
  | sleep => exact sleep_withProg p s
  | option => rfl
  | tris n => exact tris_withProg p s n

/-! ## The agents and the environment -/

theorem setPlace_withProg (b : BitPlace) : setPlace b (withProg p s) = withProg p (setPlace b s) := by
  cases b <;> rfl

theorem raiseLines_withProg (ls : List IntLine) (src : IntSource) :
    raiseLines ls src (withProg p s) = withProg p (raiseLines ls src s) := by
  induction ls generalizing s with
  | nil => rfl
  | cons l rest ih =>
    rw [raiseLines, raiseLines]
    split
    · rw [setPlace_withProg, ih]
    · rw [ih]

theorem raiseIntFlag_withProg (src : IntSource) :
    raiseIntFlag src (withProg p s) = withProg p (raiseIntFlag src s) :=
  raiseLines_withProg p s s.cfg.intSources src

theorem tmr0Tick_withProg : tmr0Tick (withProg p s) = withProg p (tmr0Tick s) := by
  rw [tmr0Tick, tmr0Tick, show (withProg p s).tmr0 = s.tmr0 from rfl]
  split
  · exact raiseIntFlag_withProg p { s with tmr0 := 0 } .t0
  · rfl

theorem tmr0Count_withProg : tmr0Count (withProg p s) = withProg p (tmr0Count s) := by
  rw [tmr0Count, tmr0Count, show (withProg p s).tmr0Inhibit = s.tmr0Inhibit from rfl]
  split
  · exact tmr0Tick_withProg p s
  · rfl

theorem timer0Clock_withProg : timer0Clock (withProg p s) = withProg p (timer0Clock s) := by
  rw [timer0Clock, timer0Clock, show (withProg p s).optionReg = s.optionReg from rfl,
    show (withProg p s).wdtps = s.wdtps from rfl]
  split
  · exact tmr0Count_withProg p s
  · split
    · exact tmr0Count_withProg p { s with wdtps := s.wdtps + 1 }
    · rfl

theorem timer0Cycle_withProg : timer0Cycle (withProg p s) = withProg p (timer0Cycle s) := by
  rw [timer0Cycle, timer0Cycle, timer0Clock_withProg, show t0cs (withProg p s) = t0cs s from rfl,
    show (withProg p s).sleeping = s.sleeping from rfl]
  split <;> rfl

theorem timer0Cycles_withProg (n : Nat) : timer0Cycles n (withProg p s) = withProg p (timer0Cycles n s) := by
  induction n generalizing s with
  | zero => rfl
  | succ n ih => rw [timer0Cycles, timer0Cycles, timer0Cycle_withProg, ih]

theorem timer0Acts_withProg : timer0Acts (withProg p s) = withProg p (timer0Acts s) := by
  rw [timer0Acts, timer0Acts, show (withProg p s).timer0Due = s.timer0Due from rfl, timer0Cycles_withProg]
  rfl

theorem rbSense_withProg (last : Byte) : rbSense last (withProg p s) = withProg p (rbSense last s) := by
  rw [rbSense, rbSense, raiseIntFlag_withProg, show rbCondition last (withProg p s) = rbCondition last s from rfl]
  split <;> rfl

theorem thenAgents_withProg (o : Result) :
    thenAgents (withProg p s) (withProgram p o) = withProgram p (thenAgents s o) := by
  cases o with
  | next t =>
    change Host.Outcome.next (timer0Acts (rbSense s.portbLast (withProg p t))) = _
    rw [rbSense_withProg, timer0Acts_withProg]
    rfl
  | fault e => rfl
  | refused r => rfl

theorem applyEnv_withProg (e : EnvEvent) : applyEnv e (withProg p s) = withProg p (applyEnv e s) := by
  cases e with
  | pins q v =>
    change (if q = .b then rbSense s.portbLast (withProg p (setPort q { getPort q s with pins := some v } s))
      else withProg p (setPort q { getPort q s with pins := some v } s)) = withProg p (setPins q v s)
    rw [rbSense_withProg, setPins]
    split <;> rfl
  | intEdge rising =>
    change (if rising = intedg s then raiseIntFlag .int (withProg p s) else withProg p s) =
      withProg p (if rising = intedg s then raiseIntFlag .int s else s)
    rw [raiseIntFlag_withProg]
    split <;> rfl
  | raiseFlag src => exact raiseIntFlag_withProg p s src
  | timer0Edge rising =>
    change (if t0cs s && (rising != t0se s) then timer0Clock (withProg p s) else withProg p s) =
      withProg p (if t0cs s && (rising != t0se s) then timer0Clock s else s)
    rw [timer0Clock_withProg]
    split <;> rfl
  | watchdogClock =>
    rw [applyEnv, applyEnv, watchdogClock, watchdogClock, show (withProg p s).cfg = s.cfg from rfl]
    split <;> rfl
  | idle n =>
    rw [applyEnv, applyEnv, show (withProg p s).sleeping = s.sleeping from rfl]
    split <;> rfl

/-! ## The boundary -/

theorem applyReset_withProg (cause : ResetCause) :
    applyReset cause (withProg p s) = withProg p (applyReset cause s) := by
  cases cause <;> rfl

theorem wdtTimeout_withProg : wdtTimeout (withProg p s) = withProg p (wdtTimeout s) := by
  rw [wdtTimeout, wdtTimeout, applyReset_withProg, show (withProg p s).sleeping = s.sleeping from rfl]
  split <;> rfl

theorem takeInterrupt_withProg : takeInterrupt (withProg p s) = withProgram p (takeInterrupt s) := by
  have hpush := push_withProg p s s.pc
  cases h : push s.pc s with
  | ok t =>
    rw [h] at hpush
    rw [Boundaries.takeInterrupt_of_ok h, Boundaries.takeInterrupt_of_ok (s := withProg p s) hpush]
    rfl
  | error e =>
    rw [h] at hpush
    rw [Boundaries.takeInterrupt_of_error h, Boundaries.takeInterrupt_of_error (s := withProg p s) hpush]
    rfl

/-- The fetch reads the word at PC, and what it decodes to does not look at the program. -/
theorem instrStep_withProg (h : progRead p s.pc = progRead s.prog s.pc) :
    instrStep (withProg p s) = withProgram p (instrStep s) := by
  have hword : progRead (withProg p s).prog (withProg p s).pc = progRead s.prog s.pc := h
  cases hw : progRead s.prog s.pc with
  | none =>
    rw [hw] at hword
    simp only [instrStep, hw, hword]
    rfl
  | some word =>
    rw [hw] at hword
    cases hd : decode word with
    | unassigned u =>
      simp only [instrStep, hw, hword, hd]
      rfl
    | instr i =>
      rw [instrStep_of_decode hw hd, instrStep_of_decode hword hd]
      exact exec_withProg p { s with afterWake := false } i

theorem boundaryStep_withProg (b : Boundary) (h : progRead p s.pc = progRead s.prog s.pc) :
    boundaryStep b (withProg p s) = withProgram p (boundaryStep b s) := by
  cases hb : b.reset with
  | some line =>
    rw [Boundaries.boundaryStep_of_reset hb, Boundaries.boundaryStep_of_reset hb,
      show resetCauseOf line (withProg p s) = resetCauseOf line s from rfl, applyReset_withProg]
    rfl
  | none =>
    cases ht : b.wdtTimeout && wdtDue s with
    | true =>
      rw [Boundaries.boundaryStep_of_timeout hb ht, Boundaries.boundaryStep_of_timeout (s := withProg p s) hb ht,
        wdtTimeout_withProg]
      rfl
    | false =>
      rw [Boundaries.boundaryStep_of_no_timeout hb ht,
        Boundaries.boundaryStep_of_no_timeout (s := withProg p s) hb ht,
        show (withProg p s).sleeping = s.sleeping from rfl,
        show wakeReq (withProg p s) = wakeReq s from rfl,
        show intEntryEnabled (withProg p s) = intEntryEnabled s from rfl,
        takeInterrupt_withProg, instrStep_withProg p s h, thenAgents_withProg, thenAgents_withProg]
      split
      · split <;> rfl
      · split <;> rfl

end Commutes

/-- Settles O8: the boundary and the environment commute with the program. -/
theorem stepReadsTheProgramAtPcOnly : Obligations.StepReadsTheProgramAtPcOnly := by
  intro s p h
  change machineStep (withProg p s) = withProgram p (machineStep s)
  have hin : (withProg p s).inputs = s.inputs := rfl
  rw [machineStep, machineStep, hin]
  split
  · exact boundaryStep_withProg p s quietBoundary h
  · next e rest _ => exact congrArg Host.Outcome.next (applyEnv_withProg p { s with inputs := rest } e)
  · next b rest _ => exact boundaryStep_withProg p { s with inputs := rest } b h

end Sys2Proof.ProgramReads

/-! SUPPORT, O51 to O53 and O60. The environment's steps raise flags and clear none; one clock of Timer0 in the words of
the statement, and any number of instruction cycles in closed form, by induction on their number; the condition of the
RB source bit by bit (R235, R236, R242, R243, R251). -/

namespace Sys2Proof.Agents

open Machine Claims

/-! ## The environment's steps (R235, R251) -/

/-- `t` has every flag of `s`, and under P84's sources its enable bits. -/
structure FlagsRaised (s t : State) : Prop where
  enables : s.cfg.intSources = p84.intSources → t.intcon &&& 0xF8 = s.intcon &&& 0xF8
  intcon_mono : s.intcon &&& ~~~t.intcon = 0
  eeif_mono : s.eeif = true → t.eeif = true

section Raised

variable {s t : State}

theorem or_and_of_disjoint {x m k : Byte} (h : m &&& k = 0) : (x ||| m) &&& k = x &&& k := by
  rw [BitVec.and_or_distrib_right, h]
  exact BitVec.or_zero

/-- P84's flags are not among the enable bits, and a source outside P84 has no flag. -/
theorem raiseIntFlag_enables (src : IntSource) (h : s.cfg.intSources = p84.intSources) :
    (raiseIntFlag src s).intcon &&& 0xF8 = s.intcon &&& 0xF8 := by
  obtain ⟨hint, ht0, hrb, hee⟩ := raiseIntFlag_p84 h
  cases src with
  | int => rw [hint]; exact or_and_of_disjoint (by decide)
  | t0 => rw [ht0]; exact or_and_of_disjoint (by decide)
  | rb => rw [hrb]; exact or_and_of_disjoint (by decide)
  | ee => rw [hee]
  | other n =>
    rw [raiseIntFlag, h]
    rfl

theorem FlagsRaised.of_same (hi : t.intcon = s.intcon) (he : t.eeif = s.eeif) : FlagsRaised s t :=
  ⟨fun _ => by rw [hi], by rw [hi]; exact BitVec.and_not_self _, fun h => he.trans h⟩

theorem flagsRaised_raiseIntFlag (src : IntSource) (s : State) : FlagsRaised s (raiseIntFlag src s) :=
  ⟨raiseIntFlag_enables src, (raiseIntFlag_agentFrame src s).intcon_mono, (raiseIntFlag_agentFrame src s).eeif_mono⟩

theorem flagsRaised_tmr0Tick (s : State) : FlagsRaised s (tmr0Tick s) := by
  unfold tmr0Tick
  split
  · have hraised := flagsRaised_raiseIntFlag .t0 { s with tmr0 := 0 }
    exact ⟨hraised.enables, hraised.intcon_mono, hraised.eeif_mono⟩
  · exact .of_same rfl rfl

theorem flagsRaised_tmr0Count (s : State) : FlagsRaised s (tmr0Count s) := by
  unfold tmr0Count
  split
  · exact flagsRaised_tmr0Tick s
  · exact .of_same rfl rfl

theorem flagsRaised_timer0Clock (s : State) : FlagsRaised s (timer0Clock s) := by
  have hcount := flagsRaised_tmr0Count { s with wdtps := s.wdtps + 1 }
  unfold timer0Clock
  split
  · exact flagsRaised_tmr0Count s
  · split
    · exact ⟨hcount.enables, hcount.intcon_mono, hcount.eeif_mono⟩
    · exact .of_same rfl rfl

theorem flagsRaised_rbSense (last : Byte) (s : State) : FlagsRaised s (rbSense last s) := by
  unfold rbSense
  split
  · exact flagsRaised_raiseIntFlag .rb s
  · exact .of_same rfl rfl

theorem flagsRaised_applyEnv (e : EnvEvent) (s : State) : FlagsRaised s (applyEnv e s) := by
  cases e with
  | pins p v =>
    have hsense := flagsRaised_rbSense s.portbLast (setPort p { getPort p s with pins := some v } s)
    rw [applyEnv, setPins]
    split
    · exact ⟨hsense.enables, hsense.intcon_mono, hsense.eeif_mono⟩
    · exact .of_same rfl rfl
  | intEdge rising =>
    rw [applyEnv]
    split
    · exact flagsRaised_raiseIntFlag .int s
    · exact .of_same rfl rfl
  | raiseFlag src => exact flagsRaised_raiseIntFlag src s
  | timer0Edge rising =>
    rw [applyEnv]
    split
    · exact flagsRaised_timer0Clock s
    · exact .of_same rfl rfl
  | watchdogClock =>
    rw [applyEnv, watchdogClock]
    split <;> exact .of_same rfl rfl
  | idle n =>
    rw [applyEnv]
    split <;> exact .of_same rfl rfl

end Raised

/-- Settles O51: the frame of an environment step, and the flags it raises. -/
theorem environmentStepsTouchOnlyTheirOwn : Obligations.EnvironmentStepsTouchOnlyTheirOwn := by
  intro e rest s hin
  have hstep : step s = .next (applyEnv e { s with inputs := rest }) := by
    change machineStep s = _
    rw [machineStep, hin]
  have hraised := flagsRaised_applyEnv e { s with inputs := rest }
  exact ⟨_, hstep, applyEnv_frame e _, hraised.enables, hraised.intcon_mono, hraised.eeif_mono⟩

/-! ## One clock of Timer0 (R242, R243) -/

section Clock

variable {s : State}

/-- The prescaler's rates divide the range of its count. -/
theorem rate_dvd (option : Byte) : 2 ^ (prescalerRate option + 1) ∣ 256 := by
  have hlt : prescalerRate option < 8 := (option.extractLsb' 0 3).isLt
  exact pow_dvd_pow 2 (show prescalerRate option + 1 ≤ 8 by omega)

theorem wdtps_succ_toNat (w : Byte) : (w + 1).toNat = (w.toNat + 1) % 256 := BitVec.toNat_add w 1

theorem prescalerPasses_iff (w option : Byte) :
    prescalerPasses (w + 1) (prescalerRate option) = true ↔
      (w.toNat + 1) % 2 ^ (prescalerRate option + 1) = 0 := by
  rw [prescalerPasses, beq_iff_eq, wdtps_succ_toNat, Nat.mod_mod_of_dvd _ (rate_dvd option)]

theorem tmr0Tick_eq_ticked (h : s.cfg.intSources = p84.intSources) : tmr0Tick s = ticked s := by
  rw [tmr0Tick, ticked, ← FileResults.add_one_eq_ofNat]
  by_cases hw : s.tmr0 + 1 = 0
  · obtain ⟨-, ht0, -⟩ := raiseIntFlag_p84 (s := { s with tmr0 := 0 }) h
    rw [if_pos hw, if_pos ((FileResults.add_one_eq_zero_iff _).1 hw), ht0, hw]
  · rw [if_neg hw, if_neg (mt (FileResults.add_one_eq_zero_iff _).2 hw)]

theorem tmr0Count_eq_ticked (h : s.cfg.intSources = p84.intSources) :
    tmr0Count s = if s.tmr0Inhibit = 0 then ticked s else s := by
  rw [tmr0Count, tmr0Tick_eq_ticked h]

theorem timer0Clock_eq_clocked (h : s.cfg.intSources = p84.intSources) : timer0Clock s = clocked s := by
  have hcount := tmr0Count_eq_ticked (s := { s with wdtps := s.wdtps + 1 }) h
  rw [timer0Clock, clocked, tmr0Count_eq_ticked h, hcount]
  change (if s.optionReg.getLsbD 3 = true then _ else _) = _
  split
  · rfl
  · by_cases hp : (s.wdtps.toNat + 1) % 2 ^ (prescalerRate s.optionReg + 1) = 0
    · rw [if_pos ((prescalerPasses_iff _ _).2 hp)]
      by_cases hi : s.tmr0Inhibit = 0
      · rw [if_pos hi]
        exact (if_pos ⟨hp, hi⟩).symm
      · rw [if_neg hi]
        exact (if_neg fun hboth => hi hboth.2).symm
    · rw [if_neg (mt (prescalerPasses_iff _ _).1 hp)]
      exact (if_neg fun hboth => hp hboth.1).symm

end Clock

/-- Settles O52: an edge and an instruction cycle are each one clock, where T0CS selects it. -/
theorem timer0CountsThroughThePrescaler : Obligations.Timer0CountsThroughThePrescaler := by
  intro s h
  refine ⟨fun rising => ?_, ?_⟩
  · have hedge : (t0cs s && (rising != t0se s)) = true ↔
        s.optionReg.getLsbD 5 = true ∧ rising = !s.optionReg.getLsbD 4 := by
      rw [Bool.and_eq_true, t0cs, t0se]
      cases rising <;> cases s.optionReg.getLsbD 4 <;> simp
    rw [applyEnv, timer0Clock_eq_clocked h]
    simp only [hedge]
  · have hcycle : (t0cs s || s.sleeping) = true ↔ ¬ (s.optionReg.getLsbD 5 = false ∧ s.sleeping = false) := by
      rw [t0cs]
      cases s.optionReg.getLsbD 5 <;> cases s.sleeping <;> simp
    rw [timer0Cycle, timer0Clock_eq_clocked h]
    by_cases hc : s.optionReg.getLsbD 5 = false ∧ s.sleeping = false
    · rw [if_neg (mt hcycle.1 (not_not_intro hc)), if_pos hc]
    · rw [if_pos (hcycle.2 hc), if_neg hc]

/-! ## Any number of instruction cycles (R242, R266) -/

section Cycles

variable {s : State} {n : Nat}

/-- Timer0's agent has the clock of the instruction cycle: T0CS = 0, and the core is awake. -/
def OnCycles (s : State) : Prop := s.sleeping = false ∧ s.optionReg.getLsbD 5 = false

theorem timer0Cycle_of_onCycles (h : OnCycles s) :
    timer0Cycle s = { timer0Clock s with tmr0Inhibit := s.tmr0Inhibit - 1 } := by
  obtain ⟨hs, hc⟩ := h
  exact if_neg (by rw [t0cs, hs, hc]; exact Bool.false_ne_true)

/-- A cycle changes neither who clocks Timer0 nor the prescaler's assignment and rate. -/
theorem timer0Cycle_keeps (s : State) :
    (timer0Cycle s).cfg = s.cfg ∧ (timer0Cycle s).optionReg = s.optionReg ∧
      (timer0Cycle s).sleeping = s.sleeping := by
  rw [(timer0Cycle_agentFrame s).frame]
  exact ⟨rfl, rfl, rfl⟩

theorem onCycles_timer0Cycle (h : OnCycles s) : OnCycles (timer0Cycle s) := by
  obtain ⟨-, hopt, hsleep⟩ := timer0Cycle_keeps s
  rw [OnCycles, hopt, hsleep]
  exact h

theorem tmr0Inhibit_timer0Cycle (s : State) : (timer0Cycle s).tmr0Inhibit = s.tmr0Inhibit - 1 := by
  unfold timer0Cycle
  split <;> rfl

/-- Raising a flag leaves TMR0 and the prescaler alone. -/
theorem raiseIntFlag_keeps (src : IntSource) (s : State) :
    (raiseIntFlag src s).tmr0 = s.tmr0 ∧ (raiseIntFlag src s).wdtps = s.wdtps := by
  rw [raiseIntFlag, raiseLines_frame]
  exact ⟨rfl, rfl⟩

theorem tmr0Tick_tmr0 (s : State) : (tmr0Tick s).tmr0 = s.tmr0 + 1 := by
  unfold tmr0Tick
  split
  · next hw => rw [(raiseIntFlag_keeps _ _).1, hw]
  · rfl

theorem tmr0Tick_wdtps (s : State) : (tmr0Tick s).wdtps = s.wdtps := by
  unfold tmr0Tick
  split
  · exact (raiseIntFlag_keeps _ _).2
  · rfl

/-- A count adds 1 unless it is inhibited. -/
theorem tmr0Count_toNat (s : State) :
    (tmr0Count s).tmr0.toNat = (s.tmr0.toNat + (1 - s.tmr0Inhibit)) % 256 := by
  have hlt := s.tmr0.isLt
  unfold tmr0Count
  split
  · next hi => rw [tmr0Tick_tmr0, hi, wdtps_succ_toNat]
  · next hi =>
    have h0 : 1 - s.tmr0Inhibit = 0 := by omega
    rw [h0, Nat.add_zero, Nat.mod_eq_of_lt hlt]

theorem tmr0Count_wdtps (s : State) : (tmr0Count s).wdtps = s.wdtps := by
  unfold tmr0Count
  split
  · exact tmr0Tick_wdtps s
  · rfl

/-- Under P84's sources T0IF is set by a count that wraps. -/
theorem tmr0Count_t0if (h : s.cfg.intSources = p84.intSources) :
    (tmr0Count s).intcon.getLsbD 2 =
      (s.intcon.getLsbD 2 || decide (256 ≤ s.tmr0.toNat + (1 - s.tmr0Inhibit))) := by
  have hlt := s.tmr0.isLt
  rw [tmr0Count_eq_ticked h]
  split
  · next hi =>
    have hwrap : s.tmr0 = 0xFF ↔ 256 ≤ s.tmr0.toNat + (1 - s.tmr0Inhibit) := by
      rw [hi, ← BitVec.toNat_inj, show (0xFF : Byte).toNat = 255 from rfl]
      omega
    have hbit : (0x04 : Byte).getLsbD 2 = true := by decide
    change (if s.tmr0 = 0xFF then s.intcon ||| 0x04 else s.intcon).getLsbD 2 = _
    by_cases hw : s.tmr0 = 0xFF
    · rw [if_pos hw, BitVec.getLsbD_or, hbit, decide_eq_true (hwrap.1 hw)]
    · rw [if_neg hw, decide_eq_false (mt hwrap.2 hw), Bool.or_false]
  · next hi =>
    have hno : ¬ 256 ≤ s.tmr0.toNat + (1 - s.tmr0Inhibit) := by omega
    rw [decide_eq_false hno, Bool.or_false]

/-- With the prescaler assigned to the Watchdog a cycle is a count. -/
theorem timer0Cycle_direct (h : OnCycles s) (hp : s.optionReg.getLsbD 3 = true) :
    timer0Cycle s = { tmr0Count s with tmr0Inhibit := s.tmr0Inhibit - 1 } := by
  rw [timer0Cycle_of_onCycles h, show timer0Clock s = tmr0Count s from if_pos hp]

/-- With the prescaler assigned to the Watchdog `n` cycles count the cycles after those of the inhibit. -/
theorem timer0Cycles_direct (h : OnCycles s) (hp : s.optionReg.getLsbD 3 = true) :
    (timer0Cycles n s).tmr0.toNat = (s.tmr0.toNat + (n - s.tmr0Inhibit)) % 256 ∧
      (timer0Cycles n s).wdtps = s.wdtps := by
  induction n generalizing s with
  | zero => exact ⟨by rw [Nat.zero_sub, Nat.add_zero]; exact (Nat.mod_eq_of_lt s.tmr0.isLt).symm, rfl⟩
  | succ n ih =>
    obtain ⟨-, hopt, -⟩ := timer0Cycle_keeps s
    obtain ⟨htmr, hwdtps⟩ := ih (onCycles_timer0Cycle h) (by rw [hopt]; exact hp)
    have hcycle := timer0Cycle_direct h hp
    have htmr1 : (timer0Cycle s).tmr0.toNat = (s.tmr0.toNat + (1 - s.tmr0Inhibit)) % 256 := by
      rw [hcycle]
      exact tmr0Count_toNat s
    have hwdtps1 : (timer0Cycle s).wdtps = s.wdtps := by
      rw [hcycle]
      exact tmr0Count_wdtps s
    rw [timer0Cycles, htmr, hwdtps, htmr1, hwdtps1, tmr0Inhibit_timer0Cycle]
    exact ⟨by omega, rfl⟩

/-- And T0IF is set exactly when the sum passes the range of TMR0. -/
theorem timer0Cycles_t0if (h : OnCycles s) (hp : s.optionReg.getLsbD 3 = true)
    (hsrc : s.cfg.intSources = p84.intSources) :
    (timer0Cycles n s).intcon.getLsbD 2 =
      (s.intcon.getLsbD 2 || decide (256 ≤ s.tmr0.toNat + (n - s.tmr0Inhibit))) := by
  induction n generalizing s with
  | zero =>
    have hno : ¬ 256 ≤ s.tmr0.toNat + (0 - s.tmr0Inhibit) := by
      have := s.tmr0.isLt
      omega
    rw [decide_eq_false hno, Bool.or_false]
    rfl
  | succ n ih =>
    have hlt := s.tmr0.isLt
    obtain ⟨hcfg, hopt, -⟩ := timer0Cycle_keeps s
    have hcycle := timer0Cycle_direct h hp
    have htmr1 : (timer0Cycle s).tmr0.toNat = (s.tmr0.toNat + (1 - s.tmr0Inhibit)) % 256 := by
      rw [hcycle]
      exact tmr0Count_toNat s
    have ht0if1 : (timer0Cycle s).intcon.getLsbD 2 =
        (s.intcon.getLsbD 2 || decide (256 ≤ s.tmr0.toNat + (1 - s.tmr0Inhibit))) := by
      rw [hcycle]
      exact tmr0Count_t0if hsrc
    rw [timer0Cycles, ih (onCycles_timer0Cycle h) (by rw [hopt]; exact hp) (by rw [hcfg]; exact hsrc), htmr1,
      ht0if1, tmr0Inhibit_timer0Cycle, Bool.or_assoc, ← Bool.decide_or]
    congr 1
    rw [decide_eq_decide]
    omega

/-- Through the prescaler a cycle counts WDTPS, and TMR0 where the count reaches a multiple of the rate. -/
theorem timer0Cycle_prescaled (h : OnCycles s) (hp : s.optionReg.getLsbD 3 = false) (hi : s.tmr0Inhibit = 0) :
    (timer0Cycle s).wdtps.toNat = (s.wdtps.toNat + 1) % 256 ∧
    (timer0Cycle s).tmr0.toNat =
      (s.tmr0.toNat + if 2 ^ (prescalerRate s.optionReg + 1) ∣ s.wdtps.toNat + 1 then 1 else 0) % 256 := by
  have hpsa : ¬ psaToWdt s.optionReg = true := by rw [psaToWdt, hp]; exact Bool.false_ne_true
  rw [timer0Cycle_of_onCycles h, timer0Clock, if_neg hpsa]
  by_cases hpass : (s.wdtps.toNat + 1) % 2 ^ (prescalerRate s.optionReg + 1) = 0
  · rw [if_pos ((prescalerPasses_iff _ _).2 hpass), if_pos (Nat.dvd_of_mod_eq_zero hpass)]
    have htmr := tmr0Count_toNat { s with wdtps := s.wdtps + 1 }
    have hwdtps := tmr0Count_wdtps { s with wdtps := s.wdtps + 1 }
    refine ⟨(congrArg BitVec.toNat hwdtps).trans (wdtps_succ_toNat _), htmr.trans ?_⟩
    change (s.tmr0.toNat + (1 - s.tmr0Inhibit)) % 256 = _
    rw [hi]
  · rw [if_neg (mt (prescalerPasses_iff _ _).1 hpass), if_neg (mt Nat.mod_eq_zero_of_dvd hpass)]
    exact ⟨wdtps_succ_toNat _, (Nat.mod_eq_of_lt s.tmr0.isLt).symm⟩

/-- Counting from `x` or from `x` modulo a multiple of `p` passes as many multiples of `p`. -/
theorem div_sub_div_mod {p m : Nat} (h : p ∣ m) (x n : Nat) :
    (x % m + n) / p - x % m / p = (x + n) / p - x / p := by
  obtain ⟨c, rfl⟩ := h
  rcases Nat.eq_zero_or_pos p with rfl | hp
  · simp
  · have hx : x = p * (c * (x / (p * c))) + x % (p * c) := by
      rw [← Nat.mul_assoc]
      exact (Nat.div_add_mod x (p * c)).symm
    generalize x % (p * c) = y at hx ⊢
    generalize c * (x / (p * c)) = q at hx
    rw [hx, Nat.add_assoc, Nat.mul_add_div hp, Nat.mul_add_div hp, Nat.add_sub_add_left]

/-- Through the prescaler, no cycle inhibited, TMR0 counts the multiples of the rate that WDTPS passes. -/
theorem timer0Cycles_prescaled (h : OnCycles s) (hp : s.optionReg.getLsbD 3 = false) (hi : s.tmr0Inhibit = 0) :
    (timer0Cycles n s).wdtps.toNat = (s.wdtps.toNat + n) % 256 ∧
    (timer0Cycles n s).tmr0.toNat =
      (s.tmr0.toNat + ((s.wdtps.toNat + n) / 2 ^ (prescalerRate s.optionReg + 1) -
        s.wdtps.toNat / 2 ^ (prescalerRate s.optionReg + 1))) % 256 := by
  induction n generalizing s with
  | zero =>
    rw [Nat.add_zero, Nat.sub_self, Nat.add_zero]
    exact ⟨(Nat.mod_eq_of_lt s.wdtps.isLt).symm, (Nat.mod_eq_of_lt s.tmr0.isLt).symm⟩
  | succ n ih =>
    obtain ⟨-, hopt, -⟩ := timer0Cycle_keeps s
    obtain ⟨hw1, ht1⟩ := timer0Cycle_prescaled h hp hi
    obtain ⟨hw, ht⟩ := ih (onCycles_timer0Cycle h) (by rw [hopt]; exact hp)
      (by rw [tmr0Inhibit_timer0Cycle, hi])
    rw [timer0Cycles, hw, ht, hw1, ht1, hopt, div_sub_div_mod (rate_dvd s.optionReg), Nat.add_right_comm,
      Nat.add_assoc]
    refine ⟨by omega, ?_⟩
    have hsucc := Nat.succ_div (a := s.wdtps.toNat) (b := 2 ^ (prescalerRate s.optionReg + 1))
    have hle : (s.wdtps.toNat + 1) / 2 ^ (prescalerRate s.optionReg + 1) ≤
        (s.wdtps.toNat + 1 + n) / 2 ^ (prescalerRate s.optionReg + 1) := Nat.div_le_div_right (Nat.le_add_right _ _)
    rw [show s.wdtps.toNat + (n + 1) = s.wdtps.toNat + 1 + n by omega]
    omega

/-- Without the clock of the instruction cycle, cycles use up the inhibit alone. -/
theorem timer0Cycles_still (h : (t0cs s || s.sleeping) = true) :
    timer0Cycles n s = { s with tmr0Inhibit := s.tmr0Inhibit - n } := by
  induction n generalizing s with
  | zero => rfl
  | succ n ih =>
    have hcycle : timer0Cycle s = { s with tmr0Inhibit := s.tmr0Inhibit - 1 } := if_pos h
    rw [timer0Cycles, hcycle, ih (s := { s with tmr0Inhibit := s.tmr0Inhibit - 1 }) h,
      show s.tmr0Inhibit - (n + 1) = s.tmr0Inhibit - 1 - n by omega]

end Cycles

/-- Settles O60: the agent takes the cycles that are due, and each case is one induction on their number. -/
theorem timer0TakesTheInstructionCycles : Obligations.Timer0TakesTheInstructionCycles := by
  intro s
  refine ⟨fun hs hc hp => ?_, fun hs hc hp hi => timer0Cycles_prescaled ⟨hs, hc⟩ hp hi, fun h => ?_⟩
  · obtain ⟨htmr, hwdtps⟩ := timer0Cycles_direct (n := s.timer0Due) ⟨hs, hc⟩ hp
    exact ⟨htmr, hwdtps, fun hsrc => timer0Cycles_t0if ⟨hs, hc⟩ hp hsrc⟩
  · have hstill : (t0cs s || s.sleeping) = true := by
      rw [Bool.or_eq_true, t0cs]
      exact h.symm
    rw [timer0Acts, timer0Cycles_still hstill]

/-! ## The RB source and the other flags (R236) -/

section RbSource

variable {s : State}

theorem ne_zero_iff (x : Byte) : x ≠ 0 ↔ ∃ j, j < 8 ∧ x.getLsbD j = true := by
  rw [← not_iff_not, not_not]
  constructor
  · rintro rfl ⟨j, -, hj⟩
    rw [show (0 : Byte).getLsbD j = false from BitVec.getLsbD_zero] at hj
    cases hj
  · intro h
    apply BitVec.eq_of_getLsbD_eq
    intro j hj
    rw [show (0 : Byte).getLsbD j = false from BitVec.getLsbD_zero, ← Bool.not_eq_true]
    exact fun hx => h ⟨j, hj, hx⟩

theorem high_nibble_getLsbD {j : Nat} (h : j < 8) : (0xF0 : Byte).getLsbD j = decide (4 ≤ j) := by
  revert j
  decide

theorem xor_getLsbD_iff (x y : Byte) (j : Nat) : (x ^^^ y).getLsbD j = true ↔ x.getLsbD j ≠ y.getLsbD j := by
  rw [BitVec.getLsbD_xor]
  cases x.getLsbD j <;> cases y.getLsbD j <;> decide

theorem portbDiffers_getLsbD_iff (j : Nat) :
    (portbDiffers s).getLsbD j = true ↔
      ∃ v, s.portB.pins = some v ∧ v.getLsbD j ≠ s.portbLast.getLsbD j := by
  unfold portbDiffers
  cases hpins : s.portB.pins with
  | none => simp
  | some v => simp only [xor_getLsbD_iff, Option.some.injEq, exists_eq_left']

/-- The condition of the RB source, bit by bit. -/
theorem rbCondition_iff (last : Byte) : rbCondition last s = true ↔ RbDiffers last s := by
  rw [rbCondition, bne_iff_ne, ne_zero_iff, RbDiffers]
  refine exists_congr fun j => ?_
  rw [BitVec.getLsbD_and, BitVec.getLsbD_and, BitVec.getLsbD_or, Bool.and_eq_true, Bool.and_eq_true,
    Bool.or_eq_true, portbDiffers_getLsbD_iff, xor_getLsbD_iff]
  constructor
  · rintro ⟨h8, ⟨hdiff, htris⟩, hhigh⟩
    rw [high_nibble_getLsbD h8, decide_eq_true_eq] at hhigh
    exact ⟨hhigh, h8, htris, hdiff⟩
  · rintro ⟨h4, h8, htris, hdiff⟩
    exact ⟨h8, ⟨hdiff, htris⟩, by rw [high_nibble_getLsbD h8, decide_eq_true h4]⟩

theorem rbSense_of_differs {last : Byte} (hsrc : s.cfg.intSources = p84.intSources) (h : RbDiffers last s) :
    rbSense last s = { s with intcon := s.intcon ||| 0x01 } := by
  obtain ⟨-, -, hrb, -⟩ := raiseIntFlag_p84 hsrc
  rw [rbSense, if_pos ((rbCondition_iff last).2 h), hrb]

theorem rbSense_of_not_differs {last : Byte} (h : ¬ RbDiffers last s) : rbSense last s = s :=
  if_neg (mt (rbCondition_iff last).1 h)

/-- Port B with new values on its pins. -/
def withPins (v : Byte) (s : State) : State := { s with portB := { s.portB with pins := some v } }

theorem applyEnv_pins_b (v : Byte) : applyEnv (.pins .b v) s = rbSense s.portbLast (withPins v s) := rfl

/-- New pins are compared with the value last read, which no read has just latched. -/
theorem rbDiffers_withPins_iff (v : Byte) :
    RbDiffers s.portbLast (withPins v s) ↔
      ∃ j, 4 ≤ j ∧ j < 8 ∧ s.portB.tris.getLsbD j = true ∧ v.getLsbD j ≠ s.portbLast.getLsbD j := by
  simp [RbDiffers, withPins]

end RbSource

/-- Settles O53: each source raises its own flag of P84, and the RB source where its condition stands. -/
theorem interruptSourcesSetTheirFlags : Obligations.InterruptSourcesSetTheirFlags := by
  intro s hsrc
  obtain ⟨hint, -, -, hee⟩ := raiseIntFlag_p84 hsrc
  refine ⟨fun rising => by rw [applyEnv, hint, intedg], hee, fun _ => rfl, fun last => rbSense_of_differs hsrc,
    fun last => rbSense_of_not_differs, fun v => ⟨fun h => ?_, fun h => ?_⟩⟩
  · rw [applyEnv_pins_b, rbSense_of_differs (s := withPins v s) hsrc ((rbDiffers_withPins_iff v).2 h)]
    rfl
  · rw [applyEnv_pins_b, rbSense_of_not_differs]
    · rfl
    · rw [rbDiffers_withPins_iff]
      rintro ⟨j, h4, h8, htris, hne⟩
      exact hne (h j h4 h8 htris)

end Sys2Proof.Agents
